-- ==== Sys2Proof/Word.lean ====
section
/-! DEFINITION. The two word types of the block: R6 and R7 give every value as an unsigned integer of a stated width. -/

namespace Sys2Proof

/-- A 32-bit value: CRC, POLY, a table entry, WDATA, RDATA, an access descriptor (R6, R60). -/
abbrev Word := BitVec 32

/-- One input byte (R100). -/
abbrev Byte := BitVec 8

end Sys2Proof
end

