-- ==== Sys2Proof/Config.lean ====
section
/-! DEFINITION. The implementation parameters of 00_scope.md section 4: those the spec fixes, as definitions, and those it leaves
open. P_BASE and P_INSTANCES are arguments of Machine/Platform.lean. -/

namespace Sys2Proof.Config

/-- IEEE, the first polynomial named by R3. -/
def ieeePoly : Word := 0xEDB88320#32

/-- Castagnoli (R3). -/
def castagnoliPoly : Word := 0x82F63B78#32

/-- Koopman (R3). -/
def koopmanPoly : Word := 0xEB31D82E#32

/-- P_RESET_POLY, fixed by R23 and decision D12. -/
def resetPoly : Word := 0xEDB88320#32

/-- The size of the aperture in bytes (R40, decision D1). -/
def apertureBytes : Nat := 0x2000

/-- P_BUILD_LATENCY: open, finite, used by no rule (R5, R152) and by no definition of this model. -/
opaque buildLatency : Nat

/-- P_FOLD8_LATENCY: open, finite, used by no rule (R5, R152) and by no definition of this model. -/
opaque fold8Latency : Nat

/-- P_FOLD32S_LATENCY: open, finite, used by no rule (R5, R152) and by no definition of this model. -/
opaque fold32SimpleLatency : Nat

/-- P_FOLD32W_LATENCY: open, finite, used by no rule (R5, R152) and by no definition of this model. -/
opaque fold32SlicedLatency : Nat

/-- P_HOST_ON_BUSERR, what a host does with an error response (R124, decision D8): an argument of Machine/HostProgram.lean.
The block behaves alike under each. -/
inductive OnBusError where
  /-- The host's program goes on with its next access. -/
  | goesOn
  /-- The host's program ends at the access that got the error response. -/
  | stops
  /-- The host's program has no rule for the response: a fault of the program (R124). -/
  | noRule
  deriving DecidableEq, Repr

end Sys2Proof.Config
end

