-- ==== Sys2Proof/Syntax.lean ====
section
/-! DEFINITION. What a host can ask of the block: the ten access forms of R65 (the block's instructions), the request that
carries one (R60), the bus-error causes (R120), and the program lines and pseudo-instructions of R69 and R70. -/

namespace Sys2Proof

/-- The ten access forms of R65, with the operands their rules give them. -/
inductive Instr where
  /-- WR.POLY (R83): load polynomial `v`, build the tables, restart the CRC. -/
  | wrPoly (v : Word)
  /-- RD.POLY (R84). -/
  | rdPoly
  /-- RD.TABLE (R85): table `k` in 0..3, entry `i` in 0..255. -/
  | rdTable (k : BitVec 2) (i : Byte)
  /-- WR.CTRL (R91). -/
  | wrCtrl (v : Word)
  /-- RD.CTRL (R90). -/
  | rdCtrl
  /-- RD.DIGEST (R93). -/
  | rdDigest
  /-- RD.STATUS (R95). -/
  | rdStatus
  /-- WR.STATUS (R96). -/
  | wrStatus (v : Word)
  /-- WR8.DATA (R101): the byte of lane 0. -/
  | wr8Data (b : Byte)
  /-- WR32.DATA (R104): four input bytes, packed as R42 says. -/
  | wr32Data (w : Word)
  deriving DecidableEq, Repr

/-- One encoded access (R60): the descriptor AD and, for a write, the data word WDATA. A read's `wdata` is read by nothing. -/
structure Request where
  ad : Word
  wdata : Word
  deriving DecidableEq, Repr

/-- The causes a bus error can have, codes 1 to 5 of R120. Code 0 (NONE) and codes 6 to 15 are never raised. -/
inductive Cause where
  | misaligned
  | unmapped
  | badWidth
  | readOnly
  | writeOnly
  deriving DecidableEq, Repr

/-- The two fold algorithms (R2, R25). -/
inductive Alg where
  /-- 0: four byte folds through T0. -/
  | simple
  /-- 1: one sliced-by-4 step through T0..T3. -/
  | sliced
  deriving DecidableEq, Repr

/-- The registers of R31 that have a base offset. -/
inductive Reg where
  | poly
  | ctrl
  | data
  | digest
  | status
  deriving DecidableEq, Repr

/-- What a mapped offset of the aperture belongs to (R122's `reg`). -/
inductive Target where
  | reg (r : Reg)
  | table
  deriving DecidableEq, Repr

/-- One line of a host's program in the syntax of R69, less the name a read binds. -/
inductive Line where
  /-- `wr32 REG, v` -/
  | wr32 (r : Reg) (v : Word)
  /-- `wr8 DATA, b` -/
  | wr8Data (b : Byte)
  /-- `rd32 REG -> name` -/
  | rd32 (r : Reg)
  /-- `rd32 TABLE[k][i] -> name` -/
  | rdTable (k : BitVec 2) (i : Byte)
  /-- `wrN off, v`, with N in 8, 16, 32, 64 -/
  | wrRaw (bits : Nat) (off : Nat) (v : Word)
  /-- `rdN off -> name`, with N in 8, 16, 32, 64 -/
  | rdRaw (bits : Nat) (off : Nat)
  deriving DecidableEq, Repr

/-- The pseudo-instructions of R70. -/
inductive Pseudo where
  /-- `new p` -/
  | new (p : Word)
  /-- `reset a` -/
  | reset (a : Alg)
  /-- `setalg a` -/
  | setalg (a : Alg)
  /-- `update s` -/
  | update (s : List Byte)
  /-- `finalize -> name` -/
  | finalize
  /-- `clrerr` -/
  | clrerr
  deriving DecidableEq, Repr

end Sys2Proof
end

