-- ==== Sys2Proof/WellFormed.lean ====
section
/-! DEFINITION. What is well formed. An `Instr` always is: each operand is a bit field of its own width and every value of it
is accepted (R82, R91, R96, R101, R104). A request is well formed when its reserved bits are 0 (R62), a raw program line when its
width is one of R69's and its offset lies in the aperture (R60, R69). -/

namespace Sys2Proof

/-- The bits RSV = AD[28:13] of R60. -/
def reservedMask : Word := 0x1FFFE000#32

/-- A well-formed descriptor: RSV = 0 (R62). Every SZ and every OFF is well formed (R61). -/
def Request.wf (r : Request) : Bool :=
  r.ad &&& reservedMask == 0

/-- A well-formed program line: a raw line's width is 8, 16, 32 or 64 bits and its offset is 0x0000 to 0x1FFF (R69). -/
def Line.wf : Line → Bool
  | .wr32 _ _ => true
  | .wr8Data _ => true
  | .rd32 _ => true
  | .rdTable _ _ => true
  | .wrRaw bits off _ => [8, 16, 32, 64].contains bits && decide (off < Config.apertureBytes)
  | .rdRaw bits off => [8, 16, 32, 64].contains bits && decide (off < Config.apertureBytes)

end Sys2Proof
end

