-- ==== Sys2Proof/Decode.lean ====
section
/-! DEFINITION. The decoder of R66, total on every descriptor, with the cause function of R122; then the encoder, written from
the same map (R65). -/

namespace Sys2Proof

/-- WR = AD[31] (R60): write. -/
def adWrite (ad : Word) : Bool := ad.getLsbD 31

/-- SZ = AD[30:29] (R60). -/
def adSize (ad : Word) : BitVec 2 := ad.extractLsb' 29 2

/-- RSV = AD[28:13] (R60). -/
def adReserved (ad : Word) : BitVec 16 := ad.extractLsb' 13 16

/-- OFF = AD[12:0] (R60). -/
def adOffset (ad : Word) : BitVec 13 := ad.extractLsb' 0 13

/-- The access size in bytes, `n = 1 << SZ` (R61). -/
def accessBytes (sz : BitVec 2) : Nat := 1 <<< sz.toNat

/-- `k = OFF[11:10]` of a TABLE offset (R64); OFF is AD[12:0]. -/
def tableNumber (ad : Word) : BitVec 2 := ad.extractLsb' 10 2

/-- `i = OFF[9:2]` of a TABLE offset (R64). -/
def tableIndex (ad : Word) : Byte := ad.extractLsb' 2 8

/-- The byte lane of an offset (R43, R63): bits `[8*(OFF mod 4)+7 : 8*(OFF mod 4)]` of the data bus. -/
def byteLane (off : BitVec 13) (w : Word) : Byte := w.extractLsb' (8 * (off.toNat % 4)) 8

/-- The base offset of a register (R31). -/
def Reg.offset : Reg → BitVec 13
  | .poly => 0x000#13
  | .ctrl => 0x004#13
  | .data => 0x008#13
  | .digest => 0x00C#13
  | .status => 0x010#13

/-- What an offset is mapped to: the `reg` of R122, none at a reserved offset (R31, R38). -/
def targetAt (off : BitVec 13) : Option Target :=
  if off = 0x000#13 then some (.reg .poly)
  else if off = 0x004#13 then some (.reg .ctrl)
  else if off = 0x008#13 then some (.reg .data)
  else if off = 0x00C#13 then some (.reg .digest)
  else if off = 0x010#13 then some (.reg .status)
  else if off.getLsbD 12 then some .table
  else none

/-- Whether a mapped offset takes an access of `n` bytes (R47, R120): 32 bits everywhere, 8 bits at DATA only. -/
def Target.acceptsBytes (t : Target) (n : Nat) : Bool :=
  n == 4 || (t == .reg .data && n == 1)

/-- DIGEST and the TABLE window (R35, R37). -/
def Target.isReadOnly : Target → Bool
  | .reg .digest => true
  | .table => true
  | .reg .poly => false
  | .reg .ctrl => false
  | .reg .data => false
  | .reg .status => false

/-- DATA (R34). -/
def Target.isWriteOnly (t : Target) : Bool := t == .reg .data

/-- The bus-error cause of an access of `n` bytes (R122), the first check that fails in R122's order. `none`: no check fails,
which R122 says a descriptor that matches no row never reaches. -/
def cause (wr : Bool) (n : Nat) (off : BitVec 13) : Option Cause :=
  if off.toNat % n ≠ 0 then some .misaligned
  else
    match targetAt off with
    | none => some .unmapped
    | some t =>
      if !t.acceptsBytes n then some .badWidth
      else if wr && t.isReadOnly then some .readOnly
      else if !wr && t.isWriteOnly then some .writeOnly
      else none

/-- The 4-bit code of a cause (R120). -/
def Cause.code : Cause → BitVec 4
  | .misaligned => 1
  | .unmapped => 2
  | .badWidth => 3
  | .readOnly => 4
  | .writeOnly => 5

/-- One row of the opcode map (R65): a descriptor AD matches when `AD & mask = pattern`; `make` gives the access form from AD and
WDATA. -/
structure Row where
  pattern : Word
  mask : Word
  make : Word → Word → Instr

/-- `(AD & r.mask) = r.match` (R66). -/
def Row.accepts (r : Row) (ad : Word) : Bool := ad &&& r.mask == r.pattern

/-- The opcode map of R65, in its order. -/
def opcodeMap : List Row :=
  [ ⟨0xC0000000, 0xFFFFFFFF, fun _ w => .wrPoly w⟩,
    ⟨0x40000000, 0xFFFFFFFF, fun _ _ => .rdPoly⟩,
    ⟨0x40001000, 0xFFFFF003, fun ad _ => .rdTable (tableNumber ad) (tableIndex ad)⟩,
    ⟨0xC0000004, 0xFFFFFFFF, fun _ w => .wrCtrl w⟩,
    ⟨0x40000004, 0xFFFFFFFF, fun _ _ => .rdCtrl⟩,
    ⟨0x4000000C, 0xFFFFFFFF, fun _ _ => .rdDigest⟩,
    ⟨0x40000010, 0xFFFFFFFF, fun _ _ => .rdStatus⟩,
    ⟨0xC0000010, 0xFFFFFFFF, fun _ w => .wrStatus w⟩,
    ⟨0x80000008, 0xFFFFFFFF, fun ad w => .wr8Data (byteLane (adOffset ad) w)⟩,
    ⟨0xC0000008, 0xFFFFFFFF, fun _ w => .wr32Data w⟩ ]

/-- What the decoder answers (R66). -/
inductive Verdict where
  /-- A row of R65: the access is performed. -/
  | access (i : Instr)
  /-- No row: the access is a bus error of this cause. -/
  | busError (c : Cause)
  /-- INVALID: RSV is not 0, so this is no access to the block (R62). -/
  | invalid
  deriving DecidableEq, Repr

/-- The decoder of R66. Its last arm is the one R122 calls not reached. -/
def decode (r : Request) : Verdict :=
  if adReserved r.ad ≠ 0 then .invalid
  else
    match opcodeMap.find? (fun row => row.accepts r.ad) with
    | some row => .access (row.make r.ad r.wdata)
    | none =>
      match cause (adWrite r.ad) (accessBytes (adSize r.ad)) (adOffset r.ad) with
      | some c => .busError c
      | none => .invalid

/-- The instruction the decoder reads from an instruction of `nbits` bits that are `w`: the descriptor is bits 31..0 and WDATA
bits 63..32 (R60), both words 0 above `nbits`. -/
def decodeTableWord (nbits w : Nat) : Option Instr :=
  match decode ⟨BitVec.ofNat 32 (w % 2 ^ nbits), BitVec.ofNat 32 ((w % 2 ^ nbits) / 2 ^ 32)⟩ with
  | .access i => some i
  | .busError _ => none
  | .invalid => none

/-- The descriptor with fields WR, SZ, RSV = 0 and OFF: `w ss 0000000000000000 ooooooooooooo` (R60). -/
def descriptor (wr : Bool) (sz : BitVec 2) (off : BitVec 13) : Word :=
  BitVec.ofBool wr ++ sz ++ 0#16 ++ off

/-- The offset of `TBL[k][i]` in the aperture: OFF[12] = 1, OFF[11:10] = k, OFF[9:2] = i (R37, R64). -/
def tableOffset (k : BitVec 2) (i : Byte) : BitVec 13 := 1#1 ++ k ++ i ++ 0#2

/-- The request of an access form (R65). WDATA is 0 where the form has none, and a byte stands in lane 0 (R63, R69). -/
def encode : Instr → Request
  | .wrPoly v => ⟨descriptor true 2 Reg.poly.offset, v⟩
  | .rdPoly => ⟨descriptor false 2 Reg.poly.offset, 0⟩
  | .rdTable k i => ⟨descriptor false 2 (tableOffset k i), 0⟩
  | .wrCtrl v => ⟨descriptor true 2 Reg.ctrl.offset, v⟩
  | .rdCtrl => ⟨descriptor false 2 Reg.ctrl.offset, 0⟩
  | .rdDigest => ⟨descriptor false 2 Reg.digest.offset, 0⟩
  | .rdStatus => ⟨descriptor false 2 Reg.status.offset, 0⟩
  | .wrStatus v => ⟨descriptor true 2 Reg.status.offset, v⟩
  | .wr8Data b => ⟨descriptor true 0 Reg.data.offset, b.setWidth 32⟩
  | .wr32Data w => ⟨descriptor true 2 Reg.data.offset, w⟩

end Sys2Proof
end

