-- ==== Sys2Proof/Machine/TableBuilder.lean ====
section
/-! DEFINITION. The table RAM's contents as data (R24, R40) and the table builder's two pure functions (R80, R81). -/

namespace Sys2Proof.Machine

/-- One lookup table: exactly 256 words, indices 0 to 255 (R24, R87). -/
structure Table where
  words : List Word
  size : words.length = 256
  deriving DecidableEq, Repr

/-- TBL: the four tables T0..T3 (R24). -/
structure Tables where
  t0 : Table
  t1 : Table
  t2 : Table
  t3 : Table
  deriving DecidableEq, Repr

/-- The block's memory is its table RAM: 1024 words and no other storage (R40). -/
abbrev Memory := Tables

/-- Table `Tk`. -/
def Tables.table (ts : Tables) (k : BitVec 2) : Table :=
  match k.toNat with
  | 0 => ts.t0
  | 1 => ts.t1
  | 2 => ts.t2
  | _ => ts.t3

/-- The form of the memory: each table has exactly its 256 words, so that equal contents are equal data (R24, R87). The type
holds every memory to it. -/
abbrev Memory.wf (m : Memory) : Prop := ∀ k : BitVec 2, (m.table k).words.length = 256

/-- Entry `i` of a table. -/
def Table.entry (t : Table) (i : Byte) : Word :=
  t.words[i.toNat]'(by rw [t.size]; exact i.isLt)

/-- `TBL[k][i]` (R8, R24). -/
def Tables.entry (ts : Tables) (k : BitVec 2) (i : Byte) : Word := (ts.table k).entry i

/-- The table whose entry `i` is `f i`, for `i` in 0..255. -/
def tabulate (f : Byte → Word) : Table where
  words := (List.range 256).map fun i => f (BitVec.ofNat 8 i)
  size := by simp

/-- One iteration of R80's inner loop. -/
def tableStep (p c : Word) : Word :=
  if c.getLsbD 0 then (c >>> 1) ^^^ p else c >>> 1

/-- Entry `i` of `buildTable(p)`: eight iterations from `zext_32(i)` (R80). -/
def tableEntry (p : Word) (i : Byte) : Word := (tableStep p)^[8] (i.setWidth 32)

/-- `buildTable(p)` (R80). -/
def buildTable (p : Word) : Table := tabulate (tableEntry p)

/-- `Tk` from T0 and `T(k-1)`: `Tk[i] = (T(k-1)[i] >> 8) XOR T0[T(k-1)[i] & 0xFF]` (R81). -/
def nextTable (t0 t : Table) : Table :=
  tabulate fun i => (t.entry i >>> 8) ^^^ t0.entry ((t.entry i).setWidth 8)

/-- `buildSlicedTable(p)` (R81). -/
def buildSlicedTable (p : Word) : Tables :=
  let t0 := buildTable p
  let t1 := nextTable t0 t0
  let t2 := nextTable t0 t1
  let t3 := nextTable t0 t2
  ⟨t0, t1, t2, t3⟩

end Sys2Proof.Machine
end

