-- ==== Sys2Proof/Machine/State.lean ====
section
/-! DEFINITION. The state of one block: the seven elements of 10_state.md section 1, and two fields of the model's own at its bus
port, the events that arrive and the response to the last access. -/

namespace Sys2Proof.Machine

/-- PHASE (R26): 0 Ready, 1 Accumulating. -/
inductive Phase where
  | ready
  | accumulating
  deriving DecidableEq, Repr

/-- The block's answer to a performed or refused access (R63, R124). -/
inductive Response where
  /-- A write completed. -/
  | done
  /-- A read completed with this RDATA. -/
  | data (rdata : Word)
  /-- The error response; no data is returned (R124). -/
  | busError (c : Cause)
  deriving DecidableEq, Repr

/-- What can arrive at the block from outside, one at a time (R51, R128). -/
inductive BusEvent where
  /-- One access. -/
  | access (r : Request)
  /-- Block reset (R140), with the access in progress that it abandons, if there is one (R141). -/
  | blockReset (abandoned : Option Request)
  deriving DecidableEq, Repr

/-- Why a run of accesses stops with a fault. -/
inductive Fault where
  /-- Raised by `hostRun` (Machine/HostProgram.lean) for a host program that has no rule for an error response: R124 makes it a
  fault of the program. Safe: the run stops. `step` and `exec` never raise it, since the block itself goes on (R125). -/
  | unhandledBusError (c : Cause)
  deriving DecidableEq, Repr

/-- Why the model gives no meaning. -/
inductive Refusal where
  /-- An instruction whose arm of `exec` has no meaning yet. Raised by no arm of this model. Safe. -/
  | notModelled (mnemonic : String)
  /-- Raised by `performAccess` for a descriptor with RSV not 0, and by `Platform.access` for a host address in no aperture:
  R62, "a model refuses such a descriptor rather than give it a meaning". Safe. -/
  | outsideAperture
  deriving DecidableEq, Repr

/-- The state of one block. -/
structure State where
  /-- CRC, "the running complemented CRC" (R21). -/
  crc : Word
  /-- POLY (R23). -/
  poly : Word
  /-- ALG (R25). -/
  alg : Alg
  /-- PHASE (R26). -/
  phase : Phase
  /-- ERR (R27). -/
  err : Bool
  /-- ERRCAUSE (R27). -/
  errCause : BitVec 4
  /-- The model's own: what is to arrive at the aperture, the first to arrive first (R51). -/
  bus : List BusEvent
  /-- The model's own: the answer to the last access, none before there was one. -/
  response : Option Response
  /-- TBL, the contents of the table RAM (R24). -/
  tbl : Tables
  deriving DecidableEq, Repr

/-- The state after block reset (R140), with nothing arriving and nothing answered yet. -/
def State.reset : State where
  crc := 0xFFFFFFFF#32
  poly := Config.resetPoly
  alg := .simple
  phase := .ready
  err := false
  errCause := 0#4
  bus := []
  response := none
  tbl := buildSlicedTable Config.resetPoly

end Sys2Proof.Machine
end

