-- ==== Sys2Proof/Machine/Operands.lean ====
section
/-! DEFINITION. Operand forms: the bytes of a data word (R42), the fields of CTRL and STATUS write data (R33, R36), and the table
RAM read byte by byte. -/

namespace Sys2Proof.Machine

/-- `w[8j+7 : 8j]`, input byte `bj` of the word (R42). -/
def wordByte (w : Word) (j : Nat) : Byte := w.extractLsb' (8 * j) 8

/-- The four input bytes of a word in stream order: b0 first (R42). -/
def wordBytes (w : Word) : List Byte := [wordByte w 0, wordByte w 1, wordByte w 2, wordByte w 3]

/-- `w = b0 | b1<<8 | b2<<16 | b3<<24` (R42). -/
def packWord (b0 b1 b2 b3 : Byte) : Word :=
  b0.setWidth 32 ||| b1.setWidth 32 <<< 8 ||| b2.setWidth 32 <<< 16 ||| b3.setWidth 32 <<< 24

/-- The RESET bit of a CTRL write (R33). -/
def ctrlResetBit (v : Word) : Bool := v.getLsbD 0

/-- The ALG field of a CTRL write (R33). -/
def ctrlAlg (v : Word) : Alg := if v.getLsbD 1 then .sliced else .simple

/-- The write-1-to-clear bit of a STATUS write (R36). -/
def statusClearBit (v : Word) : Bool := v.getLsbD 1

/-- One byte of the table RAM: byte `a mod 4` of the word at `0x400*k + 4*i`, little-endian as the TABLE window shows it (R37,
R43). `none` past its 4096 bytes (R40). -/
def State.ramByte (s : State) (a : Nat) : Option Byte :=
  if a < 4096 then
    some (wordByte (s.tbl.entry (BitVec.ofNat 2 (a / 1024)) (BitVec.ofNat 8 (a / 4))) (a % 4))
  else none

/-- The raw form of a digest, least significant byte first (R4); made outside the block. -/
def digestRaw (d : Word) : List Byte := wordBytes d

/-- The eight hexadecimal digits of a digest, most significant first (R4); made outside the block. -/
def digestHex (d : Word) : List (BitVec 4) :=
  [d.extractLsb' 28 4, d.extractLsb' 24 4, d.extractLsb' 20 4, d.extractLsb' 16 4,
   d.extractLsb' 12 4, d.extractLsb' 8 4, d.extractLsb' 4 4, d.extractLsb' 0 4]

end Sys2Proof.Machine
end

