-- ==== Sys2Proof/Machine/Flags.lean ====
section
/-! DEFINITION. The status flags PHASE and ERR (R30), the cause field, and the two words a host reads them in (R90, R95). -/

namespace Sys2Proof.Machine

/-- ALG as its bit (R25). -/
def algBit : Alg → BitVec 1
  | .simple => 0
  | .sliced => 1

/-- PHASE as its bit (R26). -/
def phaseBit : Phase → BitVec 1
  | .ready => 0
  | .accumulating => 1

/-- What a CTRL read returns, `zext_32({ALG, 0b0})` (R90). -/
def State.ctrlWord (s : State) : Word := (algBit s.alg ++ 0#1).setWidth 32

/-- What a STATUS read returns, `zext_32({ERRCAUSE[3:0], 0b00, ERR, PHASE})` (R95). -/
def State.statusWord (s : State) : Word :=
  (s.errCause ++ 0#2 ++ BitVec.ofBool s.err ++ phaseBit s.phase).setWidth 32

/-- PHASE <- 1 (R26). -/
def State.setAccumulating (s : State) : State := { s with phase := .accumulating }

/-- ERR <- 0 and ERRCAUSE <- 0, together (R27, R96). -/
def State.clearError (s : State) : State := { s with err := false, errCause := 0#4 }

/-- Capture of a bus error (R123): the first error is kept. -/
def State.captureError (c : Cause) (s : State) : State :=
  if s.err then s else { s with err := true, errCause := c.code }

end Sys2Proof.Machine
end

