-- ==== Sys2Proof/Machine/Ops.lean ====
section
/-! DEFINITION. The shared operations: the fold functions (R100, R102, R103), loading a polynomial, restarting and folding the
CRC, answering an access, taking a bus error (R121 to R125) and block reset (R140). -/

namespace Sys2Proof.Machine

/-- `fold8(c, b)` (R100). -/
def fold8 (ts : Tables) (c : Word) (b : Byte) : Word :=
  ((c >>> 8) &&& 0x00FFFFFF#32) ^^^ ts.entry 0 ((c ^^^ b.setWidth 32).setWidth 8)

/-- `fold32_simple(c, w)`: the four bytes of `w` one at a time, lowest first (R102). -/
def fold32Simple (ts : Tables) (c w : Word) : Word :=
  let c := fold8 ts c (wordByte w 0)
  let c := fold8 ts c (wordByte w 1)
  let c := fold8 ts c (wordByte w 2)
  fold8 ts c (wordByte w 3)

/-- `fold32_sliced(c, w)` (R103). -/
def fold32Sliced (ts : Tables) (c w : Word) : Word :=
  let x := c ^^^ w
  ts.entry 3 (wordByte x 0) ^^^ ts.entry 2 (wordByte x 1) ^^^ ts.entry 1 (wordByte x 2) ^^^ ts.entry 0 (wordByte x 3)

/-- The word fold that an algorithm performs (R104). -/
def fold32 (a : Alg) (ts : Tables) (c w : Word) : Word :=
  match a with
  | .simple => fold32Simple ts c w
  | .sliced => fold32Sliced ts c w

/-- CRC <- 0xFFFFFFFF and PHASE <- 0: the source's reset() (R91), also a part of WR.POLY (R83). -/
def State.restartCrc (s : State) : State := { s with crc := 0xFFFFFFFF#32, phase := .ready }

/-- POLY <- v and TBL <- buildSlicedTable(v) (R83): the one writer of the table RAM apart from block reset (R24). -/
def State.loadPoly (v : Word) (s : State) : State := { s with poly := v, tbl := buildSlicedTable v }

/-- ALG <- a (R91). -/
def State.setAlg (a : Alg) (s : State) : State := { s with alg := a }

/-- CRC <- c (R101, R104). -/
def State.setCrc (c : Word) (s : State) : State := { s with crc := c }

/-- The answer the host gets. -/
def State.respond (r : Response) (s : State) : State := { s with response := some r }

/-- A performed write completes. -/
def completeWrite (s : State) : Host.Outcome State Fault Refusal := .next (s.respond .done)

/-- A performed read completes with RDATA and no other effect (R48, R63). -/
def completeRead (rdata : Word) (s : State) : Host.Outcome State Fault Refusal := .next (s.respond (.data rdata))

/-- Taking a bus error, `raise BusError(cause)`: nothing is performed, the cause is captured (R121, R123), and the host gets the
error response without data (R124). There is no handler and no return instruction (R125): the next access follows, and
`State.clearError` is what a host undoes the capture with. -/
def takeBusError (c : Cause) (s : State) : Host.Outcome State Fault Refusal :=
  .next ((s.captureError c).respond (.busError c))

/-- Block reset (R140). What is still to arrive is held until it has completed (R141). No access is answered. -/
def State.blockReset (s : State) : State := { State.reset with bus := s.bus }

end Sys2Proof.Machine
end

