-- ==== Sys2Proof/Machine/DataFold.lean ====
section
/-! DEFINITION. The accesses of 42_data_fold.md: WR8.DATA and WR32.DATA. -/

namespace Sys2Proof.Machine

/-- WR8.DATA (R101). -/
def execWr8Data (b : Byte) (s : State) : Host.Outcome State Fault Refusal :=
  completeWrite (s.setCrc (fold8 s.tbl s.crc b)).setAccumulating

/-- WR32.DATA (R104). -/
def execWr32Data (w : Word) (s : State) : Host.Outcome State Fault Refusal :=
  completeWrite (s.setCrc (fold32 s.alg s.tbl s.crc w)).setAccumulating

end Sys2Proof.Machine
end

