-- ==== Sys2Proof/Machine/EngineControl.lean ====
section
/-! DEFINITION. The accesses of 41_engine_control.md: RD.CTRL, WR.CTRL, RD.DIGEST, RD.STATUS, WR.STATUS. -/

namespace Sys2Proof.Machine

/-- RD.CTRL (R90). -/
def execRdCtrl (s : State) : Host.Outcome State Fault Refusal :=
  completeRead s.ctrlWord s

/-- WR.CTRL (R91). -/
def execWrCtrl (v : Word) (s : State) : Host.Outcome State Fault Refusal :=
  let s := s.setAlg (ctrlAlg v)
  completeWrite (if ctrlResetBit v then s.restartCrc else s)

/-- RD.DIGEST (R93). -/
def execRdDigest (s : State) : Host.Outcome State Fault Refusal :=
  completeRead (~~~s.crc) s

/-- RD.STATUS (R95). -/
def execRdStatus (s : State) : Host.Outcome State Fault Refusal :=
  completeRead s.statusWord s

/-- WR.STATUS (R96). -/
def execWrStatus (v : Word) (s : State) : Host.Outcome State Fault Refusal :=
  completeWrite (if statusClearBit v then s.clearError else s)

end Sys2Proof.Machine
end

