-- ==== Sys2Proof/Machine/TableAccess.lean ====
section
/-! DEFINITION. The accesses of 40_table_builder.md: WR.POLY, RD.POLY, RD.TABLE. -/

namespace Sys2Proof.Machine

/-- WR.POLY (R83). -/
def execWrPoly (v : Word) (s : State) : Host.Outcome State Fault Refusal :=
  completeWrite (s.loadPoly v).restartCrc

/-- RD.POLY (R84). -/
def execRdPoly (s : State) : Host.Outcome State Fault Refusal :=
  completeRead s.poly s

/-- RD.TABLE (R85). -/
def execRdTable (k : BitVec 2) (i : Byte) (s : State) : Host.Outcome State Fault Refusal :=
  completeRead (s.tbl.entry k i) s

end Sys2Proof.Machine
end

