-- ==== Sys2Proof/Machine/Dispatch.lean ====
section
/-! DEFINITION. The dispatch: one arm per access form of R65, each a call of its meaning. -/

namespace Sys2Proof.Machine

def exec (i : Instr) (s : State) : Host.Outcome State Fault Refusal :=
  match i with
  | .wrPoly v => Sys2Proof.Machine.execWrPoly v s
  | .rdPoly => Sys2Proof.Machine.execRdPoly s
  | .rdTable k j => Sys2Proof.Machine.execRdTable k j s
  | .wrCtrl v => Sys2Proof.Machine.execWrCtrl v s
  | .rdCtrl => Sys2Proof.Machine.execRdCtrl s
  | .rdDigest => Sys2Proof.Machine.execRdDigest s
  | .rdStatus => Sys2Proof.Machine.execRdStatus s
  | .wrStatus v => Sys2Proof.Machine.execWrStatus v s
  | .wr8Data b => Sys2Proof.Machine.execWr8Data b s
  | .wr32Data w => Sys2Proof.Machine.execWr32Data w s

end Sys2Proof.Machine
end

