-- ==== Sys2Proof/Machine/Access.lean ====
section
/-! DEFINITION. One event at the block's port: an access, decoded and then performed or refused (R66), or block reset. -/

namespace Sys2Proof.Machine

/-- One access (R9, R66): performed by its rule, a bus error of its cause, or refused as no access to this block (R62). -/
def performAccess (r : Request) (s : State) : Host.Outcome State Fault Refusal :=
  match decode r with
  | .access i => exec i s
  | .busError c => takeBusError c s
  | .invalid => .refused .outsideAperture

/-- One event. A reset takes precedence over the access it cuts, which has no effect and gets no answer (R128, R141). -/
def performEvent (e : BusEvent) (s : State) : Host.Outcome State Fault Refusal :=
  match e with
  | .access r => performAccess r s
  | .blockReset _ => .next s.blockReset

/-- The request of `nbits` bits that are `w`: AD in bits 31..0, WDATA in bits 63..32 (R60). -/
def requestOfBits (nbits w : Nat) : Request :=
  ⟨BitVec.ofNat 32 (w % 2 ^ nbits), BitVec.ofNat 32 ((w % 2 ^ nbits) / 2 ^ 32)⟩

end Sys2Proof.Machine
end

