-- ==== Sys2Proof/Machine/Step.lean ====
section
/-! DEFINITION. The step: the block takes the event that has arrived first and handles it whole (R10, R51). The block has no
program counter and stores no program (R29). -/

namespace Sys2Proof.Machine

/-- One step. With nothing arriving the block keeps its state (R133). -/
def step (s : State) : Host.Outcome State Fault Refusal :=
  match s.bus with
  | [] => .next s
  | e :: rest => performEvent e { s with bus := rest }

/-- `s` with an access of these bits arriving next. -/
def State.withFetchWord (s : State) (nbits w : Nat) : State :=
  { s with bus := .access (requestOfBits nbits w) :: s.bus }

end Sys2Proof.Machine
end

