-- ==== Sys2Proof/Machine/Assembler.lean ====
section
/-! DEFINITION. The assembler syntax of a host's program (R69) and the pseudo-instructions (R70), as requests. -/

namespace Sys2Proof.Machine

/-- SZ of a width in bits, `log2(N/8)` (R61, R69); none for another width. -/
def sizeCode (bits : Nat) : Option (BitVec 2) :=
  match bits with
  | 8 => some 0
  | 16 => some 1
  | 32 => some 2
  | 64 => some 3
  | _ => none

/-- A raw descriptor (R69's last form); none where the width or the offset is none of R69's. -/
def rawRequest (wr : Bool) (bits off : Nat) (v : Word) : Option Request :=
  match sizeCode bits with
  | some sz => if off < Config.apertureBytes then some ⟨descriptor wr sz (BitVec.ofNat 13 off), v⟩ else none
  | none => none

/-- The request of a program line (R69); none for an ill-formed raw line. -/
def assemble : Line → Option Request
  | .wr32 r v => some ⟨0xC0000000#32 ||| r.offset.setWidth 32, v⟩
  | .wr8Data b => some ⟨0x80000008#32, b.setWidth 32⟩
  | .rd32 r => some ⟨0x40000000#32 ||| r.offset.setWidth 32, 0⟩
  | .rdTable k i => some ⟨0x40001000#32 ||| k.setWidth 32 <<< 10 ||| i.setWidth 32 <<< 2, 0⟩
  | .wrRaw bits off v => rawRequest true bits off v
  | .rdRaw bits off => rawRequest false bits off 0

/-- The ALG value as a word, 0 or 1. -/
def algWord : Alg → Word
  | .simple => 0
  | .sliced => 1

/-- `update s` (R70): a `wr32 DATA` for each full group of four bytes, then a `wr8 DATA` for each trailing byte. -/
def updateLines : List Byte → List Line
  | b0 :: b1 :: b2 :: b3 :: rest => .wr32 .data (packWord b0 b1 b2 b3) :: updateLines rest
  | b0 :: b1 :: b2 :: [] => [.wr8Data b0, .wr8Data b1, .wr8Data b2]
  | b0 :: b1 :: [] => [.wr8Data b0, .wr8Data b1]
  | b0 :: [] => [.wr8Data b0]
  | [] => []

/-- The expansion of a pseudo-instruction (R70). -/
def expand : Pseudo → List Line
  | .new p => [.wr32 .poly p]
  | .reset a => [.wr32 .ctrl (algWord a <<< 1 ||| 1)]
  | .setalg a => [.wr32 .ctrl (algWord a <<< 1)]
  | .update s => updateLines s
  | .finalize => [.rd32 .digest]
  | .clrerr => [.wr32 .status 0x2]

/-- The requests a pseudo-instruction issues, in order. -/
def pseudoRequests (p : Pseudo) : List Request := (expand p).filterMap assemble

end Sys2Proof.Machine
end

