-- ==== Sys2Proof/Machine/HostProgram.lean ====
section
/-! DEFINITION. A sequence of accesses: as the block performs it (R51), and as a host's program issues it under
P_HOST_ON_BUSERR (R124). -/

namespace Sys2Proof.Machine

/-- The accesses of a sequence, performed one after another in arrival order (R51). -/
def performAll : List Request → State → Host.Outcome State Fault Refusal
  | [], s => .next s
  | r :: rs, s =>
    match performAccess r s with
    | .next t => performAll rs t
    | .fault f => .fault f
    | .refused q => .refused q

/-- Whether the last access got the error response, and its cause. -/
def State.errorResponse (s : State) : Option Cause :=
  match s.response with
  | some (.busError c) => some c
  | some .done => none
  | some (.data _) => none
  | none => none

/-- A host's program of accesses under P_HOST_ON_BUSERR (R124), with the responses the host gets. A read that is a bus error
binds no value: its response carries none. -/
def hostRun (h : Config.OnBusError) : List Request → State → Host.Outcome (List Response × State) Fault Refusal
  | [], s => .next ([], s)
  | r :: rs, s =>
    match performAccess r s with
    | .fault f => .fault f
    | .refused q => .refused q
    | .next t =>
      match t.errorResponse, h with
      | some c, .noRule => .fault (.unhandledBusError c)
      | some _, .stops => .next (t.response.toList, t)
      | _, _ =>
        match hostRun h rs t with
        | .next (rest, u) => .next (t.response.toList ++ rest, u)
        | .fault f => .fault f
        | .refused q => .refused q

end Sys2Proof.Machine
end

