-- ==== Sys2Proof/Machine/Platform.lean ====
section
/-! DEFINITION. A platform of independent instances (R134), each with its own aperture at its own P_BASE (R9, R49). P_INSTANCES
is the number of instances and each P_BASE is the number beside its block: arguments, never fixed here. -/

namespace Sys2Proof.Machine

/-- One host access, `MemWrite(addr, n, v)` or `MemRead(addr, n)` with `n = 1 << size` (R9, R61). A read's `data` is read by
nothing. -/
structure HostAccess where
  write : Bool
  addr : Nat
  size : BitVec 2
  data : Word
  deriving DecidableEq, Repr

/-- The mask of the low `n` bytes of a data word. -/
def bytesMask (n : Nat) : Word := BitVec.ofNat 32 (2 ^ (8 * n) - 1)

/-- The access as the aperture at `base` sees it: OFF is the address less P_BASE (R9, R50), and the data stands on the byte lanes
of its offset (R43). -/
def HostAccess.request (base : Nat) (a : HostAccess) : Request :=
  ⟨descriptor a.write a.size (BitVec.ofNat 13 (a.addr - base)),
   if a.write then (a.data &&& bytesMask (accessBytes a.size)) <<< (8 * ((a.addr - base) % 4)) else 0⟩

/-- Whether an address lies in the aperture at `base` (R40). -/
def inAperture (base addr : Nat) : Bool := decide (base ≤ addr ∧ addr < base + Config.apertureBytes)

/-- The instances of a platform, each with its P_BASE (R134). -/
structure Platform where
  instances : List (Nat × State)
  deriving DecidableEq, Repr

/-- At least one instance (R134), no address in two apertures. -/
abbrev Platform.wf (p : Platform) : Prop :=
  p.instances ≠ [] ∧
    p.instances.Pairwise fun x y => x.1 + Config.apertureBytes ≤ y.1 ∨ y.1 + Config.apertureBytes ≤ x.1

/-- One host access to a list of instances: the one whose aperture holds the address performs it, no other changes (R134). An
address in no aperture is no access to any instance (R62). -/
def accessInstances (a : HostAccess) : List (Nat × State) → Host.Outcome (List (Nat × State)) Fault Refusal
  | [] => .refused .outsideAperture
  | (base, s) :: rest =>
    if inAperture base a.addr then
      match performAccess (a.request base) s with
      | .next t => .next ((base, t) :: rest)
      | .fault f => .fault f
      | .refused q => .refused q
    else
      match accessInstances a rest with
      | .next rest' => .next ((base, s) :: rest')
      | .fault f => .fault f
      | .refused q => .refused q

/-- One host access to a platform. -/
def Platform.access (a : HostAccess) (p : Platform) : Host.Outcome Platform Fault Refusal :=
  match accessInstances a p.instances with
  | .next l => .next ⟨l⟩
  | .fault f => .fault f
  | .refused q => .refused q

/-- Block reset of a platform: its instances start together (R134). -/
def Platform.blockReset (p : Platform) : Platform := ⟨p.instances.map fun x => (x.1, x.2.blockReset)⟩

end Sys2Proof.Machine
end

