-- ==== Sys2Proof/Safety.lean ====
section
/-! DEFINITION. The terms claims are made in: the premise of a stream (R143), the invariant of the block (R24, R97, R123), what an
access does to a stream, and the bit-serial CRC the tables are an implementation of (R1, R21). -/

namespace Sys2Proof

/-- The five reads of R97's table. -/
def Instr.isRead : Instr → Bool
  | .wrPoly _ => false
  | .rdPoly => true
  | .rdTable _ _ => true
  | .wrCtrl _ => false
  | .rdCtrl => true
  | .rdDigest => true
  | .rdStatus => true
  | .wrStatus _ => false
  | .wr8Data _ => false
  | .wr32Data _ => false

/-- The input bytes an access form folds, in stream order (R42, R101, R104). -/
def Instr.bytes : Instr → List Byte
  | .wrPoly _ => []
  | .rdPoly => []
  | .rdTable _ _ => []
  | .wrCtrl _ => []
  | .rdCtrl => []
  | .rdDigest => []
  | .rdStatus => []
  | .wrStatus _ => []
  | .wr8Data b => [b]
  | .wr32Data w => [w.extractLsb' 0 8, w.extractLsb' 8 8, w.extractLsb' 16 8, w.extractLsb' 24 8]

/-- The access forms that restart the stream: WR.POLY, and WR.CTRL with bit 0 set (R148). -/
def Instr.restarts : Instr → Bool
  | .wrPoly _ => true
  | .rdPoly => false
  | .rdTable _ _ => false
  | .wrCtrl v => v.getLsbD 0
  | .rdCtrl => false
  | .rdDigest => false
  | .rdStatus => false
  | .wrStatus _ => false
  | .wr8Data _ => false
  | .wr32Data _ => false

/-- WR.STATUS with bit 1 set: the access form that clears ERR (R96). -/
def Instr.clearsError : Instr → Bool
  | .wrPoly _ => false
  | .rdPoly => false
  | .rdTable _ _ => false
  | .wrCtrl _ => false
  | .rdCtrl => false
  | .rdDigest => false
  | .rdStatus => false
  | .wrStatus v => v.getLsbD 1
  | .wr8Data _ => false
  | .wr32Data _ => false

/-- The input bytes a request folds: none when it is a bus error (R121). -/
def Request.bytes (r : Request) : List Byte :=
  match decode r with
  | .access i => i.bytes
  | .busError _ => []
  | .invalid => []

/-- A request that reaches the block and leaves the stream going: no restart, RSV = 0. A bus error is one of these. -/
def Request.keepsStream (r : Request) : Bool :=
  match decode r with
  | .access i => !i.restarts
  | .busError _ => true
  | .invalid => false

/-- All input bytes a sequence of requests folds, in order. -/
def streamBytes (rs : List Request) : List Byte := rs.flatMap Request.bytes

/-- One input bit into the CRC register, the reflected way: the register moves right, and the polynomial enters when the bit and
the register's bit 0 differ (R1, R80: "least-significant first"). -/
def crcBit (p c : Word) (bit : Bool) : Word :=
  if c.getLsbD 0 != bit then (c >>> 1) ^^^ p else c >>> 1

/-- One input byte, least significant bit first. -/
def crcByte (p c : Word) (b : Byte) : Word :=
  (List.range 8).foldl (fun c j => crcBit p c (b.getLsbD j)) c

/-- The running register after a byte sequence, from all-ones (R21, R22). -/
def crcRegister (p : Word) (bytes : List Byte) : Word := bytes.foldl (crcByte p) 0xFFFFFFFF#32

/-- The reflected CRC-32 of a byte sequence under `p`: the complement of the register (R93, R94). -/
def crc32 (p : Word) (bytes : List Byte) : Word := ~~~(crcRegister p bytes)

namespace Machine

/-- The access form `i` is what arrives next. -/
def State.arrives (s : State) (i : Instr) : Prop :=
  ∃ r rest, s.bus = .access r :: rest ∧ decode r = .access i

/-- A block reset is what arrives next. -/
def State.resetArrives (s : State) : Prop :=
  ∃ abandoned rest, s.bus = .blockReset abandoned :: rest

/-- The named premise `CleanStart(p)` (R143). That no other host writes until the stream's end is a premise on the requests. -/
structure CleanStart (p : Word) (s : State) : Prop where
  poly : s.poly = p
  tbl : s.tbl = buildSlicedTable p
  crc : s.crc = 0xFFFFFFFF#32
  phase : s.phase = .ready
  err : s.err = false

/-- The invariant of the block at every step boundary. -/
structure Inv (s : State) : Prop where
  /-- The tables always belong to the current polynomial (R24). -/
  tables : s.tbl = buildSlicedTable s.poly
  /-- ERRCAUSE = 0 if and only if ERR = 0 (R123). -/
  errIff : s.errCause = 0#4 ↔ s.err = false
  /-- Codes 6 to 15 are never recorded (R36, R120). -/
  causeRange : s.errCause.toNat ≤ 5
  /-- In Ready, CRC is all-ones (R97). -/
  readyOnes : s.phase = .ready → s.crc = 0xFFFFFFFF#32

end Machine

end Sys2Proof
end

