-- ==== Sys2Proof/Certificates/Slice0/Obligations.lean ====
section
/-! DEFINITION. The statements for the provers, from the numbered rules of spec/. -/

open Sys2Proof Sys2Proof.Machine

/-! ## Encoding and decoding -/

/-- R65's descriptors, one per access form, and one verdict of each other kind (95_test_vectors.md section 6). -/
def Obligations.DecoderReadsTheSpecsDescriptors : Prop :=
  decode ⟨0xC0000000, 0x82F63B78⟩ = .access (.wrPoly 0x82F63B78) ∧
  decode ⟨0x40000000, 0⟩ = .access .rdPoly ∧
  decode ⟨0x40001004, 0⟩ = .access (.rdTable 0 1) ∧
  decode ⟨0x40001A00, 0⟩ = .access (.rdTable 2 0x80) ∧
  decode ⟨0x40001FFC, 0⟩ = .access (.rdTable 3 0xFF) ∧
  decode ⟨0xC0000004, 3⟩ = .access (.wrCtrl 3) ∧
  decode ⟨0x40000004, 0⟩ = .access .rdCtrl ∧
  decode ⟨0x4000000C, 0⟩ = .access .rdDigest ∧
  decode ⟨0x40000010, 0⟩ = .access .rdStatus ∧
  decode ⟨0xC0000010, 2⟩ = .access (.wrStatus 2) ∧
  decode ⟨0x80000008, 0x00000061⟩ = .access (.wr8Data 0x61) ∧
  decode ⟨0xC0000008, 0x64636261⟩ = .access (.wr32Data 0x64636261) ∧
  decode ⟨0x60000004, 0⟩ = .busError .misaligned ∧
  decode ⟨0xA000000A, 0⟩ = .busError .unmapped ∧
  decode ⟨0x20000008, 0⟩ = .busError .badWidth ∧
  decode ⟨0xC0001000, 0⟩ = .busError .readOnly ∧
  decode ⟨0x00000008, 0⟩ = .busError .writeOnly ∧
  decode ⟨0xC0002000, 0⟩ = .invalid

/-- Decoding the request of any access form, with any operands, gives the form back. -/
def Obligations.DecodeOfEncodeIsIdentity : Prop :=
  ∀ i : Instr, decode (encode i) = .access i

/-- A request that decodes to an access form has that form's descriptor, and carries its operand: all of WDATA for a 32-bit write,
WDATA[7:0] for the byte write (R63). -/
def Obligations.DecodedFormDeterminesItsRequest : Prop :=
  ∀ (r : Request) (i : Instr), decode r = .access i →
    (encode i).ad = r.ad ∧
      match i with
      | .wrPoly v => v = r.wdata
      | .rdPoly => True
      | .rdTable _ _ => True
      | .wrCtrl v => v = r.wdata
      | .rdCtrl => True
      | .rdDigest => True
      | .rdStatus => True
      | .wrStatus v => v = r.wdata
      | .wr8Data b => b = r.wdata.setWidth 8
      | .wr32Data w => w = r.wdata

/-- The fields of a built descriptor are the ones it was built from, and every well-formed descriptor is built so (R60). -/
def Obligations.DescriptorFieldsAreRecovered : Prop :=
  (∀ (wr : Bool) (sz : BitVec 2) (off : BitVec 13),
    adWrite (descriptor wr sz off) = wr ∧ adSize (descriptor wr sz off) = sz ∧
      adReserved (descriptor wr sz off) = 0 ∧ adOffset (descriptor wr sz off) = off) ∧
  ∀ ad : Word, adReserved ad = 0 → descriptor (adWrite ad) (adSize ad) (adOffset ad) = ad

/-- R65: "No two rows match one descriptor". -/
def Obligations.NoTwoOpcodeRowsMatch : Prop :=
  ∀ ad : Word, (opcodeMap.filter fun row => row.accepts ad).length ≤ 1

/-- R66 and R67: the decoder answers INVALID exactly when RSV is not 0, otherwise the row that matches, otherwise, when no row
does, a bus error with the cause of R122, which then always has one. -/
def Obligations.DecoderAnswersInvalidOrRowOrCause : Prop :=
  ∀ r : Request,
    (decode r = .invalid ↔ adReserved r.ad ≠ 0) ∧
    (adReserved r.ad = 0 → ∀ row ∈ opcodeMap, row.accepts r.ad = true →
      decode r = .access (row.make r.ad r.wdata)) ∧
    (adReserved r.ad = 0 → (∀ row ∈ opcodeMap, row.accepts r.ad = false) →
      ∃ c, cause (adWrite r.ad) (accessBytes (adSize r.ad)) (adOffset r.ad) = some c ∧ decode r = .busError c)

/-- R122, with R120's codes: the causes' conditions in the priority order, in terms of the offset as a number and the size in
bytes; a descriptor that matches no row always has one. -/
def Obligations.CauseFollowsThePriorityOrder : Prop :=
  (Cause.code .misaligned = 1 ∧ Cause.code .unmapped = 2 ∧ Cause.code .badWidth = 3 ∧ Cause.code .readOnly = 4 ∧
    Cause.code .writeOnly = 5) ∧
  (∀ ad : Word, adReserved ad = 0 → (∀ row ∈ opcodeMap, row.accepts ad = false) →
    ∃ c, cause (adWrite ad) (accessBytes (adSize ad)) (adOffset ad) = some c) ∧
  ∀ (wr : Bool) (sz : BitVec 2) (off : BitVec 13),
    cause wr (accessBytes sz) off =
      if off.toNat % 2 ^ sz.toNat ≠ 0 then some .misaligned
      else if off.toNat ∉ [0x000, 0x004, 0x008, 0x00C, 0x010] ∧ off.toNat < 0x1000 then some .unmapped
      else if 2 ^ sz.toNat ≠ 4 ∧ ¬(off.toNat = 0x008 ∧ 2 ^ sz.toNat = 1) then some .badWidth
      else if wr = true ∧ (off.toNat = 0x00C ∨ 0x1000 ≤ off.toNat) then some .readOnly
      else if wr = false ∧ off.toNat = 0x008 then some .writeOnly
      else none

/-- R46: a misaligned access, of any size and in either direction, is a bus error MISALIGNED and does nothing but the capture. -/
def Obligations.MisalignedAccessIsRefused : Prop :=
  ∀ (wr : Bool) (sz : BitVec 2) (off : BitVec 13) (w : Word) (s : State),
    off.toNat % 2 ^ sz.toNat ≠ 0 →
      decode ⟨descriptor wr sz off, w⟩ = .busError .misaligned ∧
      performAccess ⟨descriptor wr sz off, w⟩ s =
        .next { s with err := true, errCause := if s.err then s.errCause else 1, response := some (.busError .misaligned) }

/-- R62: a descriptor with RSV not 0 is INVALID; the model refuses it. -/
def Obligations.ReservedBitsSetIsNoAccess : Prop :=
  ∀ (r : Request) (s : State), adReserved r.ad ≠ 0 →
    decode r = .invalid ∧ performAccess r s = .refused .outsideAperture

/-- R63: an 8-bit DATA write takes WDATA[7:0] and ignores the other 24 bits; a 32-bit write takes all 32. -/
def Obligations.WriteOperandsComeFromTheirLanes : Prop :=
  ∀ w : Word,
    decode ⟨0x80000008, w⟩ = .access (.wr8Data (w.extractLsb' 0 8)) ∧
    decode ⟨0xC0000008, w⟩ = .access (.wr32Data w) ∧
    decode ⟨0xC0000000, w⟩ = .access (.wrPoly w) ∧
    decode ⟨0xC0000004, w⟩ = .access (.wrCtrl w) ∧
    decode ⟨0xC0000010, w⟩ = .access (.wrStatus w)

/-! ## The step -/

/-- One step takes what arrives first and leaves the rest to arrive (R51): an access form is executed, a bus error is taken, an
INVALID descriptor is refused, a reset is done; an access placed by `withFetchWord` is the one that runs; with nothing arriving
the state is kept. The list of arrivals, the idle step and reset as one event are the model's (log entries 1, 2, 5). -/
def Obligations.StepHandlesTheFirstArrival : Prop :=
  (∀ s : State, s.bus = [] → step s = .next s) ∧
  (∀ (s : State) (r : Request) (rest : List BusEvent), s.bus = .access r :: rest →
    (∀ i, decode r = .access i → step s = exec i { s with bus := rest }) ∧
    (∀ c, decode r = .busError c → step s = takeBusError c { s with bus := rest }) ∧
    (decode r = .invalid → step s = .refused .outsideAperture)) ∧
  (∀ (s : State) (abandoned : Option Request) (rest : List BusEvent), s.bus = .blockReset abandoned :: rest →
    step s = .next { State.reset with bus := rest }) ∧
  (∀ (s : State) (nbits w : Nat) (i : Instr), decodeTableWord nbits w = some i →
    step (s.withFetchWord nbits w) = exec i s)

/-- A step answers a next state unless a descriptor with RSV not 0 arrives, and then it refuses: it never faults (R126, R145). -/
def Obligations.StepStopsOnlyAtAnInvalidDescriptor : Prop :=
  ∀ s : State,
    (∃ t, step s = .next t) ∨
    (step s = .refused .outsideAperture ∧ ∃ r rest, s.bus = .access r :: rest ∧ adReserved r.ad ≠ 0)

/-- R126: an access that matches a row is performed and completes normally, whatever its data and the block's state: its answer is
that of a write done or of a read with data, never the error response. The answer is held in the model's own field (log entry 3). -/
def Obligations.MatchingAccessCompletesNormally : Prop :=
  ∀ (r : Request) (i : Instr) (s : State), decode r = .access i →
    ∃ t, performAccess r s = .next t ∧
      if i.isRead then ∃ d, t.response = some (.data d) else t.response = some .done

/-- Running the steps of a queue of accesses is performing them one after another in arrival order (R51). -/
def Obligations.StepsPerformAccessesInArrivalOrder : Prop :=
  ∀ (rs : List Request) (s : State) (rest : List BusEvent), s.bus = rs.map BusEvent.access ++ rest →
    core.run rs.length s = performAll rs { s with bus := rest }

/-! ## The table builder's accesses -/

/-- R83: WR.POLY, with its encoding, its effect and the bus errors of its offset. -/
def Obligations.WrPolyLoadsBuildsAndRestarts : Prop :=
  ∀ (v : Word) (s : State),
    decode ⟨0xC0000000, v⟩ = .access (.wrPoly v) ∧
    exec (.wrPoly v) s = .next { s with
      poly := v, tbl := buildSlicedTable v, crc := 0xFFFFFFFF, phase := .ready, response := some .done } ∧
    ∀ sz : BitVec 2, sz ≠ 2 → decode ⟨descriptor true sz 0x000, v⟩ = .busError .badWidth

/-- R84: RD.POLY, with its encoding, its effect, the bus errors of a read at its offset, and what it reads after reset. -/
def Obligations.RdPolyReturnsThePolynomial : Prop :=
  (∀ (s : State) (w : Word),
    decode ⟨0x40000000, w⟩ = .access .rdPoly ∧
    exec .rdPoly s = .next { s with response := some (.data s.poly) } ∧
    ∀ sz : BitVec 2, sz ≠ 2 → decode ⟨descriptor false sz 0x000, w⟩ = .busError .badWidth) ∧
  exec .rdPoly State.reset = .next { State.reset with response := some (.data 0xEDB88320) }

/-- R85: RD.TABLE, with its encoding, its effect, the bus errors of the window, and what it returns when the tables belong to the
polynomial. -/
def Obligations.RdTableReturnsTheEntry : Prop :=
  (∀ (k : BitVec 2) (i : Byte) (s : State) (w : Word),
    decode ⟨0x40001000 ||| k.setWidth 32 <<< 10 ||| i.setWidth 32 <<< 2, w⟩ = .access (.rdTable k i) ∧
    exec (.rdTable k i) s = .next { s with response := some (.data (s.tbl.entry k i)) }) ∧
  (∀ (k : BitVec 2) (i : Byte) (s : State), s.tbl = buildSlicedTable s.poly →
    exec (.rdTable k i) s = .next { s with response := some (.data ((buildSlicedTable s.poly).entry k i)) } ∧
    exec (.rdTable k 0) s = .next { s with response := some (.data 0) }) ∧
  ∀ (off : BitVec 13) (w : Word), 0x1000 ≤ off.toNat →
    (off.toNat % 4 ≠ 0 → decode ⟨descriptor false 2 off, w⟩ = .busError .misaligned) ∧
    (∀ sz : BitVec 2, sz ≠ 2 → decode ⟨descriptor false sz off, w⟩ =
      .busError (if off.toNat % 2 ^ sz.toNat ≠ 0 then .misaligned else .badWidth)) ∧
    (∀ sz : BitVec 2, decode ⟨descriptor true sz off, w⟩ =
      .busError (if off.toNat % 2 ^ sz.toNat ≠ 0 then .misaligned else if sz ≠ 2 then .badWidth else .readOnly))

/-- R80 and R87: every one of the 256 entries of `buildTable(p)` is eight iterations of the loop from its index. -/
def Obligations.BuildTableRunsTheLoopForEveryIndex : Prop :=
  ∀ p : Word, (buildTable p).words.length = 256 ∧
    ∀ i : Byte, (buildTable p).entry i =
      (List.range 8).foldl (fun (c : Word) _ => if c &&& 1 = 1 then (c >>> 1) ^^^ p else c >>> 1) (i.setWidth 32)

/-- R81: T0 is `buildTable(p)`, and each Tk comes from T(k-1) and T0. -/
def Obligations.SlicedTablesFollowTheRecurrence : Prop :=
  ∀ (p : Word) (i : Byte),
    let T := (buildSlicedTable p).entry
    T 0 i = (buildTable p).entry i ∧
    T 1 i = (T 0 i >>> 8) ^^^ T 0 ((T 0 i &&& 0xFF).setWidth 8) ∧
    T 2 i = (T 1 i >>> 8) ^^^ T 0 ((T 1 i &&& 0xFF).setWidth 8) ∧
    T 3 i = (T 2 i >>> 8) ^^^ T 0 ((T 2 i &&& 0xFF).setWidth 8)

/-- R86: the five properties of the built tables, for every polynomial. -/
def Obligations.BuiltTablesHaveTheirProperties : Prop :=
  ∀ p : Word,
    let ts := buildSlicedTable p
    (∀ k : BitVec 2, ts.entry k 0 = 0) ∧
    ts.entry 0 0x80 = p ∧
    (∀ (k : BitVec 2) (a b : Byte), ts.entry k (a ^^^ b) = ts.entry k a ^^^ ts.entry k b) ∧
    (∀ i : Byte, ts.entry 1 i = fold8 ts (ts.entry 0 i) 0 ∧ ts.entry 2 i = fold8 ts (ts.entry 1 i) 0 ∧
      ts.entry 3 i = fold8 ts (ts.entry 2 i) 0) ∧
    (∀ (k : BitVec 2) (i : Byte),
      ts.entry k i = (List.replicate k.toNat (0 : Byte)).foldl (fold8 ts) (fold8 ts 0 i)) ∧
    (p = 0 → ∀ (k : BitVec 2) (i : Byte), ts.entry k i = 0)

/-- After a WR.POLY every read of the TABLE window returns an entry of the new polynomial's tables: no access sees a table of an
earlier polynomial or one partly built (R54, R150). -/
def Obligations.TableReadsAfterWrPolySeeTheNewTables : Prop :=
  ∀ (v : Word) (k : BitVec 2) (i : Byte) (s : State),
    ∃ t, performAll [encode (.wrPoly v), encode (.rdTable k i)] s = .next t ∧
      t.response = some (.data ((buildSlicedTable v).entry k i))

/-! ## Engine control -/

/-- RD.CTRL: bit 1 is ALG and every other bit is 0 (R90). -/
def Obligations.RdCtrlReturnsAlg : Prop :=
  ∀ (s : State) (w : Word),
    decode ⟨0x40000004, w⟩ = .access .rdCtrl ∧
    exec .rdCtrl s = .next { s with response := some (.data (if s.alg = .sliced then 0x00000002 else 0x00000000)) }

/-- WR.CTRL: ALG takes bit 1, bit 0 resets the CRC, the other bits are ignored (R91). -/
def Obligations.WrCtrlSetsAlgAndResets : Prop :=
  ∀ (v : Word) (s : State),
    decode ⟨0xC0000004, v⟩ = .access (.wrCtrl v) ∧
    exec (.wrCtrl v) s = .next { s with
      alg := if v.getLsbD 1 then .sliced else .simple,
      crc := if v.getLsbD 0 then 0xFFFFFFFF else s.crc,
      phase := if v.getLsbD 0 then .ready else s.phase,
      response := some .done }

/-- RD.DIGEST: the complement of CRC, and nothing changes (R93). -/
def Obligations.RdDigestReturnsTheComplement : Prop :=
  ∀ (s : State) (w : Word),
    decode ⟨0x4000000C, w⟩ = .access .rdDigest ∧
    ∃ d, exec .rdDigest s = .next { s with response := some (.data d) } ∧ ∀ n < 32, d.getLsbD n = !s.crc.getLsbD n

/-- R95: RD.STATUS, bit by bit, with its encoding, the bus errors of a read at its offset, and what it reads after reset. -/
def Obligations.RdStatusReturnsTheFlags : Prop :=
  (∀ (s : State) (w : Word),
    decode ⟨0x40000010, w⟩ = .access .rdStatus ∧
    (∃ d, exec .rdStatus s = .next { s with response := some (.data d) } ∧
      d.getLsbD 0 = decide (s.phase = .accumulating) ∧ d.getLsbD 1 = s.err ∧ d.extractLsb' 2 2 = 0 ∧
      d.extractLsb' 4 4 = s.errCause ∧ d.extractLsb' 8 24 = 0 ∧
      ((s.errCause = 0 ↔ s.err = false) → d.getLsbD 1 = false → d.extractLsb' 4 4 = 0)) ∧
    ∀ sz : BitVec 2, sz ≠ 2 → decode ⟨descriptor false sz 0x010, w⟩ = .busError .badWidth) ∧
  exec .rdStatus State.reset = .next { State.reset with response := some (.data 0x00000000) }

/-- R96: WR.STATUS, with its encoding, its corner cases and the bus errors of a write at its offset. -/
def Obligations.WrStatusClearsTheError : Prop :=
  ∀ (v : Word) (s : State),
    decode ⟨0xC0000010, v⟩ = .access (.wrStatus v) ∧
    exec (.wrStatus v) s = .next { s with
      err := s.err && !v.getLsbD 1, errCause := if v.getLsbD 1 then 0 else s.errCause, response := some .done } ∧
    ((s.errCause = 0 ↔ s.err = false) → s.err = false →
      exec (.wrStatus v) s = .next { s with response := some .done }) ∧
    exec (.wrStatus 0xFFFFFFFF) s = exec (.wrStatus 0x00000002) s ∧
    ∀ sz : BitVec 2, sz ≠ 2 → decode ⟨descriptor true sz 0x010, v⟩ = .busError .badWidth

/-- R38: the reserved bits of CTRL and STATUS read 0 and ignore what is written; an aligned access to a reserved offset is UNMAPPED
and a misaligned one MISALIGNED, with no other effect than the capture. -/
def Obligations.ReservedBitsAndOffsetsHaveNoEffect : Prop :=
  (∀ (s t : State) (d : Word), exec .rdCtrl s = .next t → t.response = some (.data d) → d &&& ~~~0x00000002 = 0) ∧
  (∀ (s t : State) (d : Word), exec .rdStatus s = .next t → t.response = some (.data d) → d &&& ~~~0x000000F3 = 0) ∧
  (∀ (v w : Word) (s : State), v.extractLsb' 0 2 = w.extractLsb' 0 2 → exec (.wrCtrl v) s = exec (.wrCtrl w) s) ∧
  (∀ (v w : Word) (s : State), v.getLsbD 1 = w.getLsbD 1 → exec (.wrStatus v) s = exec (.wrStatus w) s) ∧
  ∀ (wr : Bool) (sz : BitVec 2) (off : BitVec 13) (w : Word) (s : State),
    off.toNat ∉ [0x000, 0x004, 0x008, 0x00C, 0x010] → off.toNat < 0x1000 →
      ∃ c, c = (if off.toNat % 2 ^ sz.toNat ≠ 0 then Cause.misaligned else Cause.unmapped) ∧
        decode ⟨descriptor wr sz off, w⟩ = .busError c ∧
        performAccess ⟨descriptor wr sz off, w⟩ s =
          .next { s with err := true, errCause := if s.err then s.errCause else c.code, response := some (.busError c) }

/-- A CTRL write with bit 0 set leaves what a POLY write of the current polynomial leaves, but for ALG, which takes bit 1, and the
next DIGEST read returns 0 (R92). -/
def Obligations.CtrlResetEqualsRewritingThePolynomial : Prop :=
  ∀ (v : Word) (s : State), v.getLsbD 0 = true → s.tbl = buildSlicedTable s.poly →
    ∃ t u d, exec (.wrCtrl v) s = .next t ∧ exec (.wrPoly s.poly) s = .next u ∧
      t = { u with alg := if v.getLsbD 1 then .sliced else .simple } ∧
      exec .rdDigest t = .next d ∧ d.response = some (.data 0x00000000)

/-- R97: the engine's state machine, over whatever arrives, and CRC all-ones whenever PHASE is Ready. -/
def Obligations.EngineMovesAsTheStateMachineSays : Prop :=
  (∀ (s t : State) (e : BusEvent) (rest : List BusEvent), s.bus = e :: rest → step s = .next t →
    match e with
    | .blockReset _ => t.phase = .ready ∧ t.crc = 0xFFFFFFFF
    | .access r =>
      match decode r with
      | .access (.wrPoly _) => t.phase = .ready ∧ t.crc = 0xFFFFFFFF
      | .access (.wrCtrl v) =>
        if v.getLsbD 0 then t.phase = .ready ∧ t.crc = 0xFFFFFFFF else t.phase = s.phase ∧ t.crc = s.crc
      | .access (.wr8Data b) => t.phase = .accumulating ∧ t.crc = fold8 s.tbl s.crc b
      | .access (.wr32Data w) => t.phase = .accumulating ∧
          t.crc = if s.alg = .sliced then fold32Sliced s.tbl s.crc w else fold32Simple s.tbl s.crc w
      | .access (.wrStatus _) => t.phase = s.phase ∧ t.crc = s.crc
      | .access .rdPoly => t.phase = s.phase ∧ t.crc = s.crc
      | .access (.rdTable _ _) => t.phase = s.phase ∧ t.crc = s.crc
      | .access .rdCtrl => t.phase = s.phase ∧ t.crc = s.crc
      | .access .rdDigest => t.phase = s.phase ∧ t.crc = s.crc
      | .access .rdStatus => t.phase = s.phase ∧ t.crc = s.crc
      | .busError _ => t.phase = s.phase ∧ t.crc = s.crc
      | .invalid => False) ∧
  (∀ s t : State, s.bus = [] → step s = .next t → t.phase = s.phase ∧ t.crc = s.crc) ∧
  (∀ s t : State, (s.phase = .ready → s.crc = 0xFFFFFFFF) → step s = .next t → t.phase = .ready → t.crc = 0xFFFFFFFF)

/-! ## Data folds -/

/-- WR8.DATA folds one byte through T0 whatever ALG is (R100, R101). -/
def Obligations.Wr8DataFoldsOneByte : Prop :=
  ∀ (b : Byte) (w : Word) (s : State),
    decode ⟨0x80000008, w⟩ = .access (.wr8Data (w.setWidth 8)) ∧
    exec (.wr8Data b) s = .next { s with
      crc := ((s.crc >>> 8) &&& 0x00FFFFFF) ^^^ s.tbl.entry 0 (s.crc.setWidth 8 ^^^ b),
      phase := .accumulating, response := some .done }

/-- WR32.DATA folds four bytes, lowest first, by the algorithm ALG selects (R102, R103, R104). -/
def Obligations.Wr32DataFoldsByTheSelectedAlgorithm : Prop :=
  ∀ (w : Word) (s : State),
    decode ⟨0xC0000008, w⟩ = .access (.wr32Data w) ∧
    let x := s.crc ^^^ w
    exec (.wr32Data w) s = .next { s with
      crc := match s.alg with
        | .simple => fold8 s.tbl (fold8 s.tbl (fold8 s.tbl (fold8 s.tbl s.crc
            (w.extractLsb' 0 8)) (w.extractLsb' 8 8)) (w.extractLsb' 16 8)) (w.extractLsb' 24 8)
        | .sliced => s.tbl.entry 3 (x.extractLsb' 0 8) ^^^ s.tbl.entry 2 (x.extractLsb' 8 8) ^^^
            s.tbl.entry 1 (x.extractLsb' 16 8) ^^^ s.tbl.entry 0 (x.extractLsb' 24 8),
      phase := .accumulating, response := some .done }

/-- R42: a word's bytes are the ones it was packed from, b0 lowest, and packing a word's bytes gives the word. -/
def Obligations.WordsArePackedLittleEndian : Prop :=
  (∀ b0 b1 b2 b3 : Byte, wordBytes (packWord b0 b1 b2 b3) = [b0, b1, b2, b3]) ∧
  ∀ w : Word, packWord (w.extractLsb' 0 8) (w.extractLsb' 8 8) (w.extractLsb' 16 8) (w.extractLsb' 24 8) = w

/-- R106: the two algorithms give one CRC, for every polynomial, register value and word. -/
def Obligations.SlicedFoldEqualsSimpleFold : Prop :=
  ∀ p c w : Word, fold32Sliced (buildSlicedTable p) c w = fold32Simple (buildSlicedTable p) c w

/-- The byte fold through the built table is the bit-serial reflected CRC step of one byte, least significant bit first.
The bit-serial reference is the model's reading of R1, R21 and R80 (log entry 16). -/
def Obligations.ByteFoldIsTheBitSerialCrc : Prop :=
  ∀ (p c : Word) (b : Byte), fold8 (buildSlicedTable p) c b = crcByte p c b

/-- R44: a 32-bit DATA write leaves exactly what the four 8-bit DATA writes of its bytes leave, for either value of ALG. -/
def Obligations.WordWriteEqualsFourByteWrites : Prop :=
  ∀ (w : Word) (s : State), s.tbl = buildSlicedTable s.poly →
    ∃ t, performAll [encode (.wr32Data w)] s = .next t ∧
      performAll [encode (.wr8Data (w.extractLsb' 0 8)), encode (.wr8Data (w.extractLsb' 8 8)),
        encode (.wr8Data (w.extractLsb' 16 8)), encode (.wr8Data (w.extractLsb' 24 8))] s = .next t

/-- R107: an input handed over in chunks, each by its own `update`, leaves the CRC and the digest of the whole input by one
`update`. -/
def Obligations.ChunkingLeavesTheSameDigest : Prop :=
  ∀ (chunks : List (List Byte)) (s : State), s.tbl = buildSlicedTable s.poly →
    ∃ t u dt du,
      performAll (chunks.flatMap fun c => pseudoRequests (.update c)) s = .next t ∧
      performAll (pseudoRequests (.update chunks.flatten)) s = .next u ∧ t.crc = u.crc ∧
      exec .rdDigest t = .next dt ∧ exec .rdDigest u = .next du ∧ dt.response = du.response

/-- R94: from a clean start, after any sequence of accesses that does not restart the stream (data writes in any split, reads,
changes of ALG, refused accesses), a DIGEST read returns the reflected CRC-32, under POLY, of the bytes the data writes carried. The
bit-serial `crc32` is the model's reading of R1, R21 and R80 (log entry 16). -/
def Obligations.DigestIsTheCrcOfTheStream : Prop :=
  ∀ (p : Word) (rs : List Request) (s : State), CleanStart p s → (∀ r ∈ rs, r.keepsStream = true) →
    ∃ t d, performAll rs s = .next t ∧ exec .rdDigest t = .next d ∧
      d.response = some (.data (crc32 p (streamBytes rs)))

/-- R108: the CRC after a sequence of accesses depends on POLY, the start CRC and the bytes of the data writes alone: two blocks
that agree on the first two, each given a sequence that carries the same bytes, end with the same CRC. -/
def Obligations.CrcDependsOnPolynomialStartAndBytes : Prop :=
  ∀ (rs rs' : List Request) (s s' : State),
    s.tbl = buildSlicedTable s.poly → s'.tbl = buildSlicedTable s'.poly → s.poly = s'.poly → s.crc = s'.crc →
    (∀ r ∈ rs, r.keepsStream = true) → (∀ r ∈ rs', r.keepsStream = true) → streamBytes rs = streamBytes rs' →
    ∃ t t', performAll rs s = .next t ∧ performAll rs' s' = .next t' ∧ t.crc = t'.crc

/-- ALG changes no value the block returns, but for RD.CTRL, which reads ALG itself: two blocks that differ in ALG alone, given the
same accesses, differ in ALG alone afterwards, and in no answer (R25, R106). -/
def Obligations.AlgIsSeenOnlyByRdCtrl : Prop :=
  ∀ (rs : List Request) (a : Alg) (s t : State), s.tbl = buildSlicedTable s.poly →
    (∀ r ∈ rs, decode r ≠ .access .rdCtrl) → performAll rs s = .next t →
    ∃ u, performAll rs { s with alg := a } = .next u ∧ u = { t with alg := u.alg }

/-! ## Frames -/

/-- R48: reads change nothing but the answer and are idempotent; a WR.POLY, WR.CTRL or WR.STATUS done twice leaves what it leaves
once; a DATA write folds again; a bus error changes only ERR, ERRCAUSE and the answer. -/
def Obligations.ReadsHaveNoSideEffects : Prop :=
  (∀ (i : Instr) (s : State), i.isRead = true →
    ∃ t, exec i s = .next t ∧ t.crc = s.crc ∧ t.poly = s.poly ∧ t.alg = s.alg ∧ t.phase = s.phase ∧ t.err = s.err ∧
      t.errCause = s.errCause ∧ t.bus = s.bus ∧ t.tbl = s.tbl ∧ (∀ a, t.ramByte a = s.ramByte a) ∧
      exec i t = .next t) ∧
  (∀ (v : Word) (s t : State), (exec (.wrPoly v) s = .next t → exec (.wrPoly v) t = .next t) ∧
    (exec (.wrCtrl v) s = .next t → exec (.wrCtrl v) t = .next t) ∧
    (exec (.wrStatus v) s = .next t → exec (.wrStatus v) t = .next t)) ∧
  (∃ (b : Byte) (t u : State), exec (.wr8Data b) State.reset = .next t ∧ exec (.wr8Data b) t = .next u ∧ t.crc ≠ u.crc) ∧
  ∀ (r : Request) (c : Cause) (s : State), decode r = .busError c →
    ∃ t, performAccess r s = .next t ∧ t.crc = s.crc ∧ t.poly = s.poly ∧ t.alg = s.alg ∧ t.phase = s.phase ∧
      t.bus = s.bus ∧ t.tbl = s.tbl ∧ ∀ a, t.ramByte a = s.ramByte a

/-- A DATA write changes CRC, PHASE and the answer alone: POLY, ALG, ERR, ERRCAUSE, what is to arrive and every byte of the table
RAM stay (R101, R104). -/
def Obligations.DataWritesFrame : Prop :=
  ∀ (i : Instr) (s t : State), ((∃ b, i = .wr8Data b) ∨ ∃ w, i = .wr32Data w) → exec i s = .next t →
    t.poly = s.poly ∧ t.alg = s.alg ∧ t.err = s.err ∧ t.errCause = s.errCause ∧ t.bus = s.bus ∧ t.tbl = s.tbl ∧
      ∀ a, t.ramByte a = s.ramByte a

/-- WR.CTRL and WR.STATUS store nothing to the table RAM: WR.CTRL changes ALG, and CRC and PHASE only with bit 0 set; WR.STATUS
changes ERR and ERRCAUSE, and only with bit 1 set (R91, R96). -/
def Obligations.ControlWritesFrame : Prop :=
  ∀ (v : Word) (s t : State),
    (exec (.wrCtrl v) s = .next t →
      t.poly = s.poly ∧ t.err = s.err ∧ t.errCause = s.errCause ∧ t.bus = s.bus ∧ t.tbl = s.tbl ∧
      (v.getLsbD 0 = false → t.crc = s.crc ∧ t.phase = s.phase) ∧ ∀ a, t.ramByte a = s.ramByte a) ∧
    (exec (.wrStatus v) s = .next t →
      t.crc = s.crc ∧ t.poly = s.poly ∧ t.alg = s.alg ∧ t.phase = s.phase ∧ t.bus = s.bus ∧ t.tbl = s.tbl ∧
      (v.getLsbD 1 = false → t.err = s.err ∧ t.errCause = s.errCause) ∧ ∀ a, t.ramByte a = s.ramByte a)

/-- WR.POLY leaves ALG, ERR, ERRCAUSE and what is to arrive; it stores to all 4096 bytes of the table RAM, byte `a` of them being
byte `a mod 4` of entry `(a / 4) mod 256` of the built table `a / 1024`, and to no byte past them (R83). The
byte addresses of the RAM are the TABLE window's (log entry 8). -/
def Obligations.PolyWriteFrame : Prop :=
  ∀ (v : Word) (s t : State), exec (.wrPoly v) s = .next t →
    t.alg = s.alg ∧ t.err = s.err ∧ t.errCause = s.errCause ∧ t.bus = s.bus ∧
    (∀ a, 4096 ≤ a → t.ramByte a = s.ramByte a) ∧
    ∀ (k : BitVec 2) (i : Byte) (j : Nat), j < 4 →
      t.ramByte (1024 * k.toNat + 4 * i.toNat + j) =
        some (((buildSlicedTable v).entry k i).extractLsb' (8 * j) 8)

/-- Each register is written only by the events its rule names (R21, R23, R24, R25). -/
def Obligations.RegistersChangeOnlyByTheirWriters : Prop :=
  ∀ s t : State, step s = .next t →
    (t.poly ≠ s.poly ∨ t.tbl ≠ s.tbl → (∃ v, s.arrives (.wrPoly v)) ∨ s.resetArrives) ∧
    (t.alg ≠ s.alg → (∃ v, s.arrives (.wrCtrl v)) ∨ s.resetArrives) ∧
    (t.crc ≠ s.crc →
      (∃ b, s.arrives (.wr8Data b)) ∨ (∃ w, s.arrives (.wr32Data w)) ∨
      (∃ v, s.arrives (.wrCtrl v) ∧ v.getLsbD 0 = true) ∨ (∃ v, s.arrives (.wrPoly v)) ∨ s.resetArrives) ∧
    (t.phase ≠ s.phase →
      (∃ b, s.arrives (.wr8Data b)) ∨ (∃ w, s.arrives (.wr32Data w)) ∨
      (∃ v, s.arrives (.wrCtrl v) ∧ v.getLsbD 0 = true) ∨ (∃ v, s.arrives (.wrPoly v)) ∨ s.resetArrives)

/-! ## Bus errors -/

/-- R121 and R123: a bus error performs nothing; the first since the last clear is captured, a later one keeps it; and ERRCAUSE = 0
if and only if ERR = 0, at every step. -/
def Obligations.BusErrorCapturesTheFirstCauseOnly : Prop :=
  (∀ (r : Request) (c : Cause) (s : State), decode r = .busError c →
    performAccess r s = .next { s with
      err := true, errCause := if s.err then s.errCause else c.code, response := some (.busError c) }) ∧
  ∀ s t : State, (s.errCause = 0 ↔ s.err = false) → step s = .next t → (t.errCause = 0 ↔ t.err = false)

/-- R125: a second bus error changes nothing but the answer, and a set ERR keeps its cause until a WR.STATUS with bit 1 set or a
block reset clears both. -/
def Obligations.ErrStaysSetUntilCleared : Prop :=
  (∀ (r : Request) (c : Cause) (s : State), s.err = true → decode r = .busError c →
    performAccess r s = .next { s with response := some (.busError c) }) ∧
  ∀ s t : State, s.err = true → step s = .next t →
    if t.err then t.errCause = s.errCause
    else t.errCause = 0 ∧ ((∃ v, s.arrives (.wrStatus v) ∧ v.getLsbD 1 = true) ∨ s.resetArrives)

/-- ERR tells whether an access was refused: over a sequence from ERR = 0 that does not clear it, ERR is still 0 at the end exactly
when every access was performed (R144, R151). -/
def Obligations.ErrClearMeansNothingWasRefused : Prop :=
  ∀ (rs : List Request) (s t : State), s.err = false →
    (∀ r ∈ rs, ∀ i, decode r = .access i → i.clearsError = false) → performAll rs s = .next t →
    (t.err = false ↔ ∀ r ∈ rs, ∃ i, decode r = .access i)

/-- A host that goes on after an error response gets one answer for each access and leaves the block where the accesses leave it; a
host with no rule for the response faults exactly when some access is refused, and is otherwise the same (R124). The three
hosts are the model's values of P_HOST_ON_BUSERR (log entry 12). -/
def Obligations.HostPolicyDecidesWhetherTheProgramGoesOn : Prop :=
  ∀ (rs : List Request) (s t : State), performAll rs s = .next t →
    (∃ answers, hostRun .goesOn rs s = .next (answers, t) ∧ answers.length = rs.length) ∧
    ((∀ r ∈ rs, ∃ i, decode r = .access i) → ∃ answers, hostRun .noRule rs s = .next (answers, t) ∧
      hostRun .stops rs s = .next (answers, t)) ∧
    ((∃ r ∈ rs, ∃ c, decode r = .busError c) → ∃ c, hostRun .noRule rs s = .fault (.unhandledBusError c))

/-! ## Reset -/

/-- R140: block reset sets every piece of state, in the reset state and from any state, and what reads return after it; and that is
what writing the reset polynomial, 0 to CTRL and 2 to STATUS leaves. -/
def Obligations.BlockResetSetsEveryElement : Prop :=
  (∀ s t : State, (t = State.reset ∨ (s.resetArrives ∧ step s = .next t) ∨
      (∃ u, performAll [encode (.wrPoly 0xEDB88320), encode (.wrCtrl 0), encode (.wrStatus 2)] s = .next u ∧ t = u)) →
    t.poly = 0xEDB88320 ∧ t.tbl = buildSlicedTable 0xEDB88320 ∧ t.crc = 0xFFFFFFFF ∧ t.phase = .ready ∧
    t.alg = .simple ∧ t.err = false ∧ t.errCause = 0 ∧
    exec .rdDigest t = .next { t with response := some (.data 0x00000000) } ∧
    exec .rdCtrl t = .next { t with response := some (.data 0x00000000) } ∧
    exec .rdStatus t = .next { t with response := some (.data 0x00000000) }) ∧
  (∀ s : State, s.resetArrives → ∃ t, step s = .next t) ∧
  ∀ s : State, ∃ u, performAll [encode (.wrPoly 0xEDB88320), encode (.wrCtrl 0), encode (.wrStatus 2)] s = .next u

/-- An access cut by a reset has no effect, and what arrives while the reset goes on is held, in order, and not answered (R128,
R141). That reset is one event, and that it clears the answer held, is the model's (log entries 3, 5). -/
def Obligations.ResetAbandonsTheCutAccessAndHoldsTheRest : Prop :=
  ∀ (s s' : State) (cut cut' : Option Request) (rest : List BusEvent),
    s.bus = .blockReset cut :: rest → s'.bus = .blockReset cut' :: rest →
    ∃ t, step s = .next t ∧ step s' = .next t ∧ t.bus = rest ∧ t.response = none

/-- `new p` and then `clrerr` establish the premise CleanStart(p) from any state, and `reset a` and then `clrerr` establish it from
any state whose tables belong to its polynomial (R143). -/
def Obligations.NewAndResetGiveACleanStart : Prop :=
  (∀ (p : Word) (s : State),
    ∃ t, performAll (pseudoRequests (.new p) ++ pseudoRequests .clrerr) s = .next t ∧ CleanStart p t) ∧
  ∀ (a : Alg) (s : State), s.tbl = buildSlicedTable s.poly →
    ∃ t, performAll (pseudoRequests (.reset a) ++ pseudoRequests .clrerr) s = .next t ∧ CleanStart s.poly t ∧ t.alg = a

/-! ## The invariant -/

/-- The invariant holds in the reset state. -/
def Obligations.InvariantHoldsAtReset : Prop := Inv State.reset

/-- Every step keeps the invariant: the tables belong to the polynomial, ERR and ERRCAUSE agree, the cause is one the block records,
and CRC is all-ones in Ready (R24, R97, R120, R123). -/
def Obligations.StepKeepsTheInvariant : Prop :=
  ∀ s t : State, Inv s → step s = .next t → Inv t

/-! ## Programs, addresses and instances -/

/-- R70: what each pseudo-instruction expands to; `update s` folds the bytes of `s` in order, by `len / 4` word writes and then
`len mod 4` byte writes. That
the request of `finalize`, a read, carries WDATA 0 is the model's choice (log entry 14). -/
def Obligations.PseudoInstructionsExpandToTheirAccesses : Prop :=
  (∀ p : Word, pseudoRequests (.new p) = [⟨0xC0000000, p⟩]) ∧
  pseudoRequests (.reset .simple) = [⟨0xC0000004, 1⟩] ∧ pseudoRequests (.reset .sliced) = [⟨0xC0000004, 3⟩] ∧
  pseudoRequests (.setalg .simple) = [⟨0xC0000004, 0⟩] ∧ pseudoRequests (.setalg .sliced) = [⟨0xC0000004, 2⟩] ∧
  pseudoRequests .finalize = [⟨0x4000000C, 0⟩] ∧ pseudoRequests .clrerr = [⟨0xC0000010, 2⟩] ∧
  ∀ bs : List Byte, ∃ ws : List Word, ∃ tail : List Byte,
    pseudoRequests (.update bs) = ws.map (fun w => ⟨0xC0000008, w⟩) ++ tail.map (fun b => ⟨0x80000008, b.setWidth 32⟩) ∧
    ws.length = bs.length / 4 ∧ tail.length = bs.length % 4 ∧ ws.flatMap wordBytes ++ tail = bs

/-- R69: the descriptor of each program line. A raw line carries its direction, width and offset, and is assembled only when it is
well formed. That a read's request carries WDATA 0 is the model's choice (log entry 14), and so are a raw line's `v` of 32 bits and
what makes a raw line well formed (log entry 18). -/
def Obligations.ProgramLinesAssembleToTheirDescriptors : Prop :=
  (∀ (r : Reg) (v : Word), assemble (.wr32 r v) = some ⟨descriptor true 2 r.offset, v⟩) ∧
  (∀ b : Byte, assemble (.wr8Data b) = some (encode (.wr8Data b))) ∧
  (∀ r : Reg, assemble (.rd32 r) = some ⟨descriptor false 2 r.offset, 0⟩) ∧
  (∀ (k : BitVec 2) (i : Byte), assemble (.rdTable k i) = some (encode (.rdTable k i))) ∧
  (∀ l : Line, (assemble l).isSome = l.wf) ∧
  ∀ (bits off : Nat) (v : Word), (Line.wrRaw bits off v).wf = true →
    ∃ w r, assemble (.wrRaw bits off v) = some w ∧ assemble (.rdRaw bits off) = some r ∧ w.wdata = v ∧
      w.wf = true ∧ adWrite w.ad = true ∧ 8 * accessBytes (adSize w.ad) = bits ∧ (adOffset w.ad).toNat = off ∧
      r.wf = true ∧ adWrite r.ad = false ∧ 8 * accessBytes (adSize r.ad) = bits ∧ (adOffset r.ad).toNat = off

/-- A host access at `P_BASE + OFF` reaches the block as the same request wherever P_BASE is, with its direction, size and offset;
a byte written at any offset of the aperture stands on that offset's lane, and a word is carried whole (R9, R43, R49, R50). -/
def Obligations.HostAccessReachesItsOffsetAndLane : Prop :=
  ∀ (wr : Bool) (base : Nat) (off : BitVec 13) (sz : BitVec 2) (d : Word),
    let r := HostAccess.request base ⟨wr, base + off.toNat, sz, d⟩
    r = HostAccess.request 0 ⟨wr, off.toNat, sz, d⟩ ∧
    adWrite r.ad = wr ∧ adSize r.ad = sz ∧ adReserved r.ad = 0 ∧ adOffset r.ad = off ∧
    (wr = true → sz = 0 → byteLane off r.wdata = d.setWidth 8) ∧
    (wr = true → sz = 2 → off.toNat % 4 = 0 → r.wdata = d)

/-- An access to one instance never changes another, and the one whose aperture holds the address performs it; bases never change
(R134). The list of instances and `Platform.wf` are the model's (log entry 10). -/
def Obligations.AccessChangesOnlyTheAddressedInstance : Prop :=
  ∀ (a : HostAccess) (p q : Platform), p.wf → p.access a = .next q →
    q.instances.length = p.instances.length ∧
    ∀ (n : Nat) (base : Nat) (s : State), p.instances[n]? = some (base, s) →
      ∃ t, q.instances[n]? = some (base, t) ∧
        if inAperture base a.addr then performAccess (a.request base) s = .next t else t = s

/-- R4: the raw form of a digest is read back least significant byte first, the hexadecimal form most significant digit first, and
both give the digest. -/
def Obligations.RawAndHexFormsReadBackToTheDigest : Prop :=
  ∀ d : Word,
    (∃ b0 b1 b2 b3 : Byte, digestRaw d = [b0, b1, b2, b3] ∧ b3 ++ b2 ++ b1 ++ b0 = d) ∧
    (digestHex d).length = 8 ∧ (digestHex d).foldl (fun n h => 16 * n + h.toNat) 0 = d.toNat
end

