-- ==== Sys2Proof/Laws/State.lean ====
section
/-! SUPPORT. One lemma per field of State per update, so that no proof unfolds a record update. -/

namespace Sys2Proof.Machine

variable (s : State)

@[simp] theorem State.setAccumulating_crc : (s.setAccumulating).crc = s.crc := rfl
@[simp] theorem State.setAccumulating_poly : (s.setAccumulating).poly = s.poly := rfl
@[simp] theorem State.setAccumulating_alg : (s.setAccumulating).alg = s.alg := rfl
@[simp] theorem State.setAccumulating_phase : (s.setAccumulating).phase = .accumulating := rfl
@[simp] theorem State.setAccumulating_err : (s.setAccumulating).err = s.err := rfl
@[simp] theorem State.setAccumulating_errCause : (s.setAccumulating).errCause = s.errCause := rfl
@[simp] theorem State.setAccumulating_bus : (s.setAccumulating).bus = s.bus := rfl
@[simp] theorem State.setAccumulating_response : (s.setAccumulating).response = s.response := rfl
@[simp] theorem State.setAccumulating_tbl : (s.setAccumulating).tbl = s.tbl := rfl

@[simp] theorem State.clearError_crc : (s.clearError).crc = s.crc := rfl
@[simp] theorem State.clearError_poly : (s.clearError).poly = s.poly := rfl
@[simp] theorem State.clearError_alg : (s.clearError).alg = s.alg := rfl
@[simp] theorem State.clearError_phase : (s.clearError).phase = s.phase := rfl
@[simp] theorem State.clearError_err : (s.clearError).err = false := rfl
@[simp] theorem State.clearError_errCause : (s.clearError).errCause = 0#4 := rfl
@[simp] theorem State.clearError_bus : (s.clearError).bus = s.bus := rfl
@[simp] theorem State.clearError_response : (s.clearError).response = s.response := rfl
@[simp] theorem State.clearError_tbl : (s.clearError).tbl = s.tbl := rfl

@[simp] theorem State.restartCrc_crc : (s.restartCrc).crc = 0xFFFFFFFF#32 := rfl
@[simp] theorem State.restartCrc_poly : (s.restartCrc).poly = s.poly := rfl
@[simp] theorem State.restartCrc_alg : (s.restartCrc).alg = s.alg := rfl
@[simp] theorem State.restartCrc_phase : (s.restartCrc).phase = .ready := rfl
@[simp] theorem State.restartCrc_err : (s.restartCrc).err = s.err := rfl
@[simp] theorem State.restartCrc_errCause : (s.restartCrc).errCause = s.errCause := rfl
@[simp] theorem State.restartCrc_bus : (s.restartCrc).bus = s.bus := rfl
@[simp] theorem State.restartCrc_response : (s.restartCrc).response = s.response := rfl
@[simp] theorem State.restartCrc_tbl : (s.restartCrc).tbl = s.tbl := rfl

@[simp] theorem State.loadPoly_crc (v : Word) : (s.loadPoly v).crc = s.crc := rfl
@[simp] theorem State.loadPoly_poly (v : Word) : (s.loadPoly v).poly = v := rfl
@[simp] theorem State.loadPoly_alg (v : Word) : (s.loadPoly v).alg = s.alg := rfl
@[simp] theorem State.loadPoly_phase (v : Word) : (s.loadPoly v).phase = s.phase := rfl
@[simp] theorem State.loadPoly_err (v : Word) : (s.loadPoly v).err = s.err := rfl
@[simp] theorem State.loadPoly_errCause (v : Word) : (s.loadPoly v).errCause = s.errCause := rfl
@[simp] theorem State.loadPoly_bus (v : Word) : (s.loadPoly v).bus = s.bus := rfl
@[simp] theorem State.loadPoly_response (v : Word) : (s.loadPoly v).response = s.response := rfl
@[simp] theorem State.loadPoly_tbl (v : Word) : (s.loadPoly v).tbl = buildSlicedTable v := rfl

@[simp] theorem State.setAlg_crc (a : Alg) : (s.setAlg a).crc = s.crc := rfl
@[simp] theorem State.setAlg_poly (a : Alg) : (s.setAlg a).poly = s.poly := rfl
@[simp] theorem State.setAlg_alg (a : Alg) : (s.setAlg a).alg = a := rfl
@[simp] theorem State.setAlg_phase (a : Alg) : (s.setAlg a).phase = s.phase := rfl
@[simp] theorem State.setAlg_err (a : Alg) : (s.setAlg a).err = s.err := rfl
@[simp] theorem State.setAlg_errCause (a : Alg) : (s.setAlg a).errCause = s.errCause := rfl
@[simp] theorem State.setAlg_bus (a : Alg) : (s.setAlg a).bus = s.bus := rfl
@[simp] theorem State.setAlg_response (a : Alg) : (s.setAlg a).response = s.response := rfl
@[simp] theorem State.setAlg_tbl (a : Alg) : (s.setAlg a).tbl = s.tbl := rfl

@[simp] theorem State.setCrc_crc (c : Word) : (s.setCrc c).crc = c := rfl
@[simp] theorem State.setCrc_poly (c : Word) : (s.setCrc c).poly = s.poly := rfl
@[simp] theorem State.setCrc_alg (c : Word) : (s.setCrc c).alg = s.alg := rfl
@[simp] theorem State.setCrc_phase (c : Word) : (s.setCrc c).phase = s.phase := rfl
@[simp] theorem State.setCrc_err (c : Word) : (s.setCrc c).err = s.err := rfl
@[simp] theorem State.setCrc_errCause (c : Word) : (s.setCrc c).errCause = s.errCause := rfl
@[simp] theorem State.setCrc_bus (c : Word) : (s.setCrc c).bus = s.bus := rfl
@[simp] theorem State.setCrc_response (c : Word) : (s.setCrc c).response = s.response := rfl
@[simp] theorem State.setCrc_tbl (c : Word) : (s.setCrc c).tbl = s.tbl := rfl

@[simp] theorem State.respond_crc (r : Response) : (s.respond r).crc = s.crc := rfl
@[simp] theorem State.respond_poly (r : Response) : (s.respond r).poly = s.poly := rfl
@[simp] theorem State.respond_alg (r : Response) : (s.respond r).alg = s.alg := rfl
@[simp] theorem State.respond_phase (r : Response) : (s.respond r).phase = s.phase := rfl
@[simp] theorem State.respond_err (r : Response) : (s.respond r).err = s.err := rfl
@[simp] theorem State.respond_errCause (r : Response) : (s.respond r).errCause = s.errCause := rfl
@[simp] theorem State.respond_bus (r : Response) : (s.respond r).bus = s.bus := rfl
@[simp] theorem State.respond_response (r : Response) : (s.respond r).response = some r := rfl
@[simp] theorem State.respond_tbl (r : Response) : (s.respond r).tbl = s.tbl := rfl

@[simp] theorem State.blockReset_crc : (s.blockReset).crc = State.reset.crc := rfl
@[simp] theorem State.blockReset_poly : (s.blockReset).poly = State.reset.poly := rfl
@[simp] theorem State.blockReset_alg : (s.blockReset).alg = State.reset.alg := rfl
@[simp] theorem State.blockReset_phase : (s.blockReset).phase = State.reset.phase := rfl
@[simp] theorem State.blockReset_err : (s.blockReset).err = State.reset.err := rfl
@[simp] theorem State.blockReset_errCause : (s.blockReset).errCause = State.reset.errCause := rfl
@[simp] theorem State.blockReset_bus : (s.blockReset).bus = s.bus := rfl
@[simp] theorem State.blockReset_response : (s.blockReset).response = State.reset.response := rfl
@[simp] theorem State.blockReset_tbl : (s.blockReset).tbl = State.reset.tbl := rfl

@[simp] theorem State.withFetchWord_crc (n w : Nat) : (s.withFetchWord n w).crc = s.crc := rfl
@[simp] theorem State.withFetchWord_poly (n w : Nat) : (s.withFetchWord n w).poly = s.poly := rfl
@[simp] theorem State.withFetchWord_alg (n w : Nat) : (s.withFetchWord n w).alg = s.alg := rfl
@[simp] theorem State.withFetchWord_phase (n w : Nat) : (s.withFetchWord n w).phase = s.phase := rfl
@[simp] theorem State.withFetchWord_err (n w : Nat) : (s.withFetchWord n w).err = s.err := rfl
@[simp] theorem State.withFetchWord_errCause (n w : Nat) : (s.withFetchWord n w).errCause = s.errCause := rfl
@[simp] theorem State.withFetchWord_bus (n w : Nat) : (s.withFetchWord n w).bus = .access (requestOfBits n w) :: s.bus := rfl
@[simp] theorem State.withFetchWord_response (n w : Nat) : (s.withFetchWord n w).response = s.response := rfl
@[simp] theorem State.withFetchWord_tbl (n w : Nat) : (s.withFetchWord n w).tbl = s.tbl := rfl

@[simp] theorem State.captureError_crc (c : Cause) : (s.captureError c).crc = s.crc := by
  unfold State.captureError; split <;> rfl
@[simp] theorem State.captureError_poly (c : Cause) : (s.captureError c).poly = s.poly := by
  unfold State.captureError; split <;> rfl
@[simp] theorem State.captureError_alg (c : Cause) : (s.captureError c).alg = s.alg := by
  unfold State.captureError; split <;> rfl
@[simp] theorem State.captureError_phase (c : Cause) : (s.captureError c).phase = s.phase := by
  unfold State.captureError; split <;> rfl
@[simp] theorem State.captureError_err (c : Cause) : (s.captureError c).err = true := by
  unfold State.captureError; split <;> simp_all
@[simp] theorem State.captureError_errCause (c : Cause) : (s.captureError c).errCause = if s.err then s.errCause else c.code := by
  unfold State.captureError; split <;> rfl
@[simp] theorem State.captureError_bus (c : Cause) : (s.captureError c).bus = s.bus := by
  unfold State.captureError; split <;> rfl
@[simp] theorem State.captureError_response (c : Cause) : (s.captureError c).response = s.response := by
  unfold State.captureError; split <;> rfl
@[simp] theorem State.captureError_tbl (c : Cause) : (s.captureError c).tbl = s.tbl := by
  unfold State.captureError; split <;> rfl

@[simp] theorem State.reset_crc : State.reset.crc = 0xFFFFFFFF#32 := rfl
@[simp] theorem State.reset_poly : State.reset.poly = Config.resetPoly := rfl
@[simp] theorem State.reset_alg : State.reset.alg = .simple := rfl
@[simp] theorem State.reset_phase : State.reset.phase = .ready := rfl
@[simp] theorem State.reset_err : State.reset.err = false := rfl
@[simp] theorem State.reset_errCause : State.reset.errCause = 0#4 := rfl
@[simp] theorem State.reset_bus : State.reset.bus = [] := rfl
@[simp] theorem State.reset_response : State.reset.response = none := rfl
@[simp] theorem State.reset_tbl : State.reset.tbl = buildSlicedTable Config.resetPoly := rfl

/-- States with equal fields are equal. -/
theorem State.ext_fields {s t : State} (crc : s.crc = t.crc) (poly : s.poly = t.poly) (alg : s.alg = t.alg)
    (phase : s.phase = t.phase) (err : s.err = t.err) (errCause : s.errCause = t.errCause) (bus : s.bus = t.bus)
    (response : s.response = t.response) (tbl : s.tbl = t.tbl) : s = t := by
  cases s; cases t; simp_all

end Sys2Proof.Machine
end

