-- ==== Sys2Proof/Laws/Tables.lean ====
section
/-! SUPPORT. What the table RAM reads as: the entries of a built table (R80, R81), its fixed size (R87), and that its bytes depend
on TBL alone. -/

namespace Sys2Proof.Machine

/-- A table always has its 256 words: the one form its contents can have (R87). -/
theorem Table.words_length (t : Table) : t.words.length = 256 := t.size

/-- Every memory has the form, so every operation on it keeps it: `State.loadPoly` and `State.blockReset`, its only writers (R24),
among them. -/
theorem Memory.wf_all (m : Memory) : m.wf := fun k => (m.table k).size

theorem loadPoly_memory_wf (v : Word) (s : State) : Memory.wf (s.loadPoly v).tbl := Memory.wf_all _

theorem blockReset_memory_wf (s : State) : Memory.wf s.blockReset.tbl := Memory.wf_all _

theorem reset_memory_wf : Memory.wf State.reset.tbl := Memory.wf_all _

@[simp] theorem tabulate_entry (f : Byte → Word) (i : Byte) : (tabulate f).entry i = f i := by
  simp [Table.entry, tabulate]

/-- Tables with equal entries are equal. -/
theorem Table.ext_entry {t u : Table} (h : ∀ i, t.entry i = u.entry i) : t = u := by
  obtain ⟨a, ha⟩ := t
  obtain ⟨b, hb⟩ := u
  have : a = b := by
    apply List.ext_getElem (by rw [ha, hb])
    intro n h₁ _
    have hn : n < 256 := ha ▸ h₁
    have := h (BitVec.ofNat 8 n)
    simpa [Table.entry, Nat.mod_eq_of_lt hn] using this
  subst this
  rfl

@[simp] theorem buildTable_entry (p : Word) (i : Byte) : (buildTable p).entry i = tableEntry p i :=
  tabulate_entry _ i

@[simp] theorem nextTable_entry (t0 t : Table) (i : Byte) :
    (nextTable t0 t).entry i = (t.entry i >>> 8) ^^^ t0.entry ((t.entry i).setWidth 8) :=
  tabulate_entry _ i

@[simp] theorem Tables.entry_zero (ts : Tables) (i : Byte) : ts.entry 0#2 i = ts.t0.entry i := rfl
@[simp] theorem Tables.entry_one (ts : Tables) (i : Byte) : ts.entry 1#2 i = ts.t1.entry i := rfl
@[simp] theorem Tables.entry_two (ts : Tables) (i : Byte) : ts.entry 2#2 i = ts.t2.entry i := rfl
@[simp] theorem Tables.entry_three (ts : Tables) (i : Byte) : ts.entry 3#2 i = ts.t3.entry i := rfl

theorem buildSlicedTable_t0 (p : Word) : (buildSlicedTable p).t0 = buildTable p := rfl
theorem buildSlicedTable_t1 (p : Word) :
    (buildSlicedTable p).t1 = nextTable (buildSlicedTable p).t0 (buildSlicedTable p).t0 := rfl
theorem buildSlicedTable_t2 (p : Word) :
    (buildSlicedTable p).t2 = nextTable (buildSlicedTable p).t0 (buildSlicedTable p).t1 := rfl
theorem buildSlicedTable_t3 (p : Word) :
    (buildSlicedTable p).t3 = nextTable (buildSlicedTable p).t0 (buildSlicedTable p).t2 := rfl

/-- An entry of T0 is R80's eight iterations. -/
theorem buildSlicedTable_entry_zero (p : Word) (i : Byte) : (buildSlicedTable p).entry 0#2 i = tableEntry p i := by
  rw [Tables.entry_zero, buildSlicedTable_t0, buildTable_entry]

/-- The table RAM's bytes depend on TBL alone. -/
theorem ramByte_congr {s t : State} (h : t.tbl = s.tbl) (a : Nat) : t.ramByte a = s.ramByte a := by
  simp [State.ramByte, h]

/-- The table RAM has 4096 bytes (R40). -/
theorem ramByte_none (s : State) {a : Nat} (h : 4096 ≤ a) : s.ramByte a = none := by
  simp [State.ramByte, Nat.not_lt.mpr h]

end Sys2Proof.Machine
end

