-- ==== Sys2Proof/Laws/Ops.lean ====
section
/-! SUPPORT. What each shared operation and each meaning can do, said once: an equation or an inversion lemma each, which later
proofs cite instead of unfolding it. -/

namespace Sys2Proof.Machine

variable {s t : State}

theorem completeWrite_eq (s : State) : completeWrite s = .next (s.respond .done) := rfl

theorem completeRead_eq (d : Word) (s : State) : completeRead d s = .next (s.respond (.data d)) := rfl

theorem takeBusError_eq (c : Cause) (s : State) :
    takeBusError c s = .next ((s.captureError c).respond (.busError c)) := rfl

theorem exec_wrPoly (v : Word) (s : State) : exec (.wrPoly v) s = .next ((s.loadPoly v).restartCrc.respond .done) := rfl

theorem exec_rdPoly (s : State) : exec .rdPoly s = .next (s.respond (.data s.poly)) := rfl

theorem exec_rdTable (k : BitVec 2) (i : Byte) (s : State) :
    exec (.rdTable k i) s = .next (s.respond (.data (s.tbl.entry k i))) := rfl

theorem exec_wrCtrl (v : Word) (s : State) :
    exec (.wrCtrl v) s = .next ((if ctrlResetBit v then (s.setAlg (ctrlAlg v)).restartCrc
      else s.setAlg (ctrlAlg v)).respond .done) := rfl

theorem exec_rdCtrl (s : State) : exec .rdCtrl s = .next (s.respond (.data s.ctrlWord)) := rfl

theorem exec_rdDigest (s : State) : exec .rdDigest s = .next (s.respond (.data (~~~s.crc))) := rfl

theorem exec_rdStatus (s : State) : exec .rdStatus s = .next (s.respond (.data s.statusWord)) := rfl

theorem exec_wrStatus (v : Word) (s : State) :
    exec (.wrStatus v) s = .next ((if statusClearBit v then s.clearError else s).respond .done) := rfl

theorem exec_wr8Data (b : Byte) (s : State) :
    exec (.wr8Data b) s = .next ((s.setCrc (fold8 s.tbl s.crc b)).setAccumulating.respond .done) := rfl

theorem exec_wr32Data (w : Word) (s : State) :
    exec (.wr32Data w) s = .next ((s.setCrc (fold32 s.alg s.tbl s.crc w)).setAccumulating.respond .done) := rfl

/-- An access form touches nothing of what is still to arrive. -/
theorem exec_bus (i : Instr) (h : exec i s = .next t) : t.bus = s.bus := by
  cases i <;> simp only [exec, execWrPoly, execRdPoly, execRdTable, execWrCtrl, execRdCtrl, execRdDigest, execRdStatus,
    execWrStatus, execWr8Data, execWr32Data, completeWrite, completeRead, Host.Outcome.next.injEq] at h <;>
    subst h <;> (try split) <;> simp

/-- What performing a request can do. -/
theorem performAccess_next (r : Request) (h : performAccess r s = .next t) :
    (∃ i, decode r = .access i ∧ exec i s = .next t) ∨
      ∃ c, decode r = .busError c ∧ t = (s.captureError c).respond (.busError c) := by
  unfold performAccess at h
  split at h
  · exact .inl ⟨_, ‹_›, h⟩
  · exact .inr ⟨_, ‹_›, by simpa [takeBusError] using h.symm⟩
  · simp at h

/-- What one step can do: idle, perform an access form, take a bus error, or reset the block. -/
theorem step_next (h : step s = .next t) :
    (s.bus = [] ∧ t = s) ∨
    (∃ r rest i, s.bus = .access r :: rest ∧ decode r = .access i ∧ exec i { s with bus := rest } = .next t) ∨
    (∃ r rest c, s.bus = .access r :: rest ∧ decode r = .busError c ∧
      t = (State.captureError c { s with bus := rest }).respond (.busError c)) ∨
    (∃ abandoned rest, s.bus = .blockReset abandoned :: rest ∧ t = State.blockReset { s with bus := rest }) := by
  unfold step at h
  split at h
  · exact .inl ⟨‹_›, by simpa using h.symm⟩
  · rename_i e rest hb
    cases e with
    | access r =>
      rcases performAccess_next r h with ⟨i, hd, he⟩ | ⟨c, hd, ht⟩
      · exact .inr (.inl ⟨r, rest, i, hb, hd, he⟩)
      · exact .inr (.inr (.inl ⟨r, rest, c, hb, hd, ht⟩))
    | blockReset a => exact .inr (.inr (.inr ⟨a, rest, hb, by simpa [performEvent] using h.symm⟩))

/-- The fold functions keep to their rules' formulas (R100). -/
theorem fold8_eq (ts : Tables) (c : Word) (b : Byte) :
    fold8 ts c b = ((c >>> 8) &&& 0x00FFFFFF#32) ^^^ ts.entry 0#2 ((c ^^^ b.setWidth 32).setWidth 8) := rfl

/-- R103. -/
theorem fold32Sliced_eq (ts : Tables) (c w : Word) :
    fold32Sliced ts c w = ts.entry 3#2 (wordByte (c ^^^ w) 0) ^^^ ts.entry 2#2 (wordByte (c ^^^ w) 1) ^^^
      ts.entry 1#2 (wordByte (c ^^^ w) 2) ^^^ ts.entry 0#2 (wordByte (c ^^^ w) 3) := rfl

end Sys2Proof.Machine
end

