-- ==== Sys2Proof/Laws/PerInstr.lean ====
section
/-! SUPPORT. Family `Encoded`, one lemma per access form: its request is well formed and carries its row's match under its row's
mask (R65). -/

namespace Sys2Proof.Laws.Encoded

/-- Match and mask of an access form's row, as spec/opcode_table.json has them. -/
def rowOf : Instr → Word × Word
  | .wrPoly _ => (0xC0000000, 0xFFFFFFFF)
  | .rdPoly => (0x40000000, 0xFFFFFFFF)
  | .rdTable _ _ => (0x40001000, 0xFFFFF003)
  | .wrCtrl _ => (0xC0000004, 0xFFFFFFFF)
  | .rdCtrl => (0x40000004, 0xFFFFFFFF)
  | .rdDigest => (0x4000000C, 0xFFFFFFFF)
  | .rdStatus => (0x40000010, 0xFFFFFFFF)
  | .wrStatus _ => (0xC0000010, 0xFFFFFFFF)
  | .wr8Data _ => (0x80000008, 0xFFFFFFFF)
  | .wr32Data _ => (0xC0000008, 0xFFFFFFFF)

/-- The request is well formed, its direction is the form's, and its descriptor matches the form's row. -/
def Statement (i : Instr) : Prop :=
  (encode i).wf = true ∧ adWrite (encode i).ad = !i.isRead ∧ (encode i).ad &&& (rowOf i).2 = (rowOf i).1

theorem wrPoly (v : Word) : Statement (.wrPoly v) := by
  simp only [Statement, encode, rowOf, Instr.isRead, Request.wf]; decide
theorem rdPoly : Statement .rdPoly := ⟨rfl, rfl, rfl⟩
theorem rdTable (k : BitVec 2) (i : Byte) : Statement (.rdTable k i) := by
  have h : ∀ (k : BitVec 2) (i : Byte),
      (descriptor false 2 (tableOffset k i) &&& reservedMask == 0) = true ∧
        adWrite (descriptor false 2 (tableOffset k i)) = true.not ∧
        descriptor false 2 (tableOffset k i) &&& 0xFFFFF003#32 = 0x40001000#32 := by
    decide +kernel
  exact h k i
theorem wrCtrl (v : Word) : Statement (.wrCtrl v) := by
  simp only [Statement, encode, rowOf, Instr.isRead, Request.wf]; decide
theorem rdCtrl : Statement .rdCtrl := ⟨rfl, rfl, rfl⟩
theorem rdDigest : Statement .rdDigest := ⟨rfl, rfl, rfl⟩
theorem rdStatus : Statement .rdStatus := ⟨rfl, rfl, rfl⟩
theorem wrStatus (v : Word) : Statement (.wrStatus v) := by
  simp only [Statement, encode, rowOf, Instr.isRead, Request.wf]; decide
theorem wr8Data (b : Byte) : Statement (.wr8Data b) := by
  simp only [Statement, encode, rowOf, Instr.isRead, Request.wf]; decide
theorem wr32Data (w : Word) : Statement (.wr32Data w) := by
  simp only [Statement, encode, rowOf, Instr.isRead, Request.wf]; decide

end Sys2Proof.Laws.Encoded
end

