-- ==== Sys2Proof/Tests/Slice0.lean ====
section
/-! SUPPORT. The smoke test of the well-formedness checks; one word per access form and one descriptor per verdict, written out from
the spec; small runs of one access with the values of 95_test_vectors.md; and, for each statement with hypotheses, a witness that
meets them. -/

-- One theorem at a time: each theorem elaborated beside the others costs a thread's stack.
set_option Elab.async false

namespace Sys2Proof.Tests

open Sys2Proof.Machine

/-- Whether an outcome is a next state that passes a check. -/
def passes (o : Host.Outcome State Fault Refusal) (check : State → Bool) : Bool :=
  match o with
  | .next t => check t
  | .fault _ => false
  | .refused _ => false

/-- A block with polynomial `p`, its tables, and CRC = `c`, accumulating. -/
def block (p c : Word) : State :=
  { State.reset with poly := p, tbl := buildSlicedTable p, crc := c, phase := .accumulating }

/-! ## Well-formedness smoke test: one ill-formed term per check -/

/-- V-E23: RSV bit 13 set. -/
theorem test_wf_refuses_reserved_bits : Request.wf ⟨0xC0002000, 0⟩ = false := by decide

theorem test_wf_refuses_width_24 : Line.wf (.wrRaw 24 0x008 0) = false ∧ Line.wf (.rdRaw 0 0x008) = false := by decide

theorem test_wf_refuses_offset_past_aperture :
    Line.wf (.wrRaw 32 0x2000 0) = false ∧ Line.wf (.rdRaw 32 0x2000) = false := by decide

theorem test_wf_accepts_the_last_word : Request.wf ⟨0x40001FFC, 0⟩ = true ∧ Line.wf (.rdRaw 32 0x1FFF) = true := by decide

/-! ## Decoding: words written out from the pattern `w ss 0000000000000000 ooooooooooooo` of R60 -/

theorem test_decode_wrPoly :
    decode ⟨0b1_10_0000000000000000_0000000000000, 0x82F63B78⟩ = .access (.wrPoly 0x82F63B78) := by decide

theorem test_decode_rdPoly : decode ⟨0b0_10_0000000000000000_0000000000000, 0⟩ = .access .rdPoly := by decide

/-- k = 2, i = 0x80: OFF = 1 10 10000000 00. -/
theorem test_decode_rdTable :
    decode ⟨0b0_10_0000000000000000_1101000000000, 0⟩ = .access (.rdTable 2 0x80) := by decide

theorem test_decode_wrCtrl : decode ⟨0b1_10_0000000000000000_0000000000100, 3⟩ = .access (.wrCtrl 3) := by decide

theorem test_decode_rdCtrl : decode ⟨0b0_10_0000000000000000_0000000000100, 0⟩ = .access .rdCtrl := by decide

theorem test_decode_rdDigest : decode ⟨0b0_10_0000000000000000_0000000001100, 0⟩ = .access .rdDigest := by decide

theorem test_decode_rdStatus : decode ⟨0b0_10_0000000000000000_0000000010000, 0⟩ = .access .rdStatus := by decide

theorem test_decode_wrStatus : decode ⟨0b1_10_0000000000000000_0000000010000, 2⟩ = .access (.wrStatus 2) := by decide

/-- R101: WDATA[31:8] is ignored. -/
theorem test_decode_wr8Data :
    decode ⟨0b1_00_0000000000000000_0000000001000, 0xABCDEF61⟩ = .access (.wr8Data 0x61) := by decide

theorem test_decode_wr32Data :
    decode ⟨0b1_10_0000000000000000_0000000001000, 0x64636261⟩ = .access (.wr32Data 0x64636261) := by decide

/-- V-E2, V-E3, V-E5, V-E6, V-E8, V-E9, V-E10, V-E14, V-E17, V-E20, V-E21, V-E24 of 95_test_vectors.md section 6. -/
theorem test_decode_bus_errors :
    decode ⟨0x00000008, 0⟩ = .busError .writeOnly ∧ decode ⟨0x20000008, 0⟩ = .busError .badWidth ∧
    decode ⟨0xE0000008, 0⟩ = .busError .badWidth ∧ decode ⟨0xC0000009, 0⟩ = .busError .misaligned ∧
    decode ⟨0xA000000A, 0⟩ = .busError .unmapped ∧ decode ⟨0x8000000C, 0⟩ = .busError .badWidth ∧
    decode ⟨0xC000000C, 0⟩ = .busError .readOnly ∧ decode ⟨0x60000004, 0⟩ = .busError .misaligned ∧
    decode ⟨0x40000FFC, 0⟩ = .busError .unmapped ∧ decode ⟨0x40001FFE, 0⟩ = .busError .misaligned ∧
    decode ⟨0xE0001000, 0⟩ = .busError .badWidth ∧ decode ⟨0x40004000, 0⟩ = .invalid := by decide

/-- WDATA stands above the descriptor: bits 63..32 of a 64-bit instruction, and 0 in a row of 32 bits. -/
theorem test_decodeTableWord :
    decodeTableWord 64 0x82F63B78C0000000 = some (.wrPoly 0x82F63B78) ∧
    decodeTableWord 32 0xC0000000 = some (.wrPoly 0) ∧ decodeTableWord 32 0x40000008 = none := by decide

/-! ## One access each -/

/-- V-B1, with the values of R83's worked example. -/
theorem test_wrPoly_castagnoli :
    passes (exec (.wrPoly 0x82F63B78) { block 0xEDB88320 0xCADBBE3D with alg := .sliced }) (fun t =>
      t.poly == 0x82F63B78 && t.tbl.entry 0 0x80 == 0x82F63B78 && t.tbl.entry 3 1 == 0xDD45AAB8 &&
      t.crc == 0xFFFFFFFF && t.phase == .ready && t.alg == .sliced) = true := by decide +kernel

/-- R84's worked example. -/
theorem test_rdPoly_koopman :
    passes (exec .rdPoly (block 0xEB31D82E 0)) (fun t => t.response == some (.data 0xEB31D82E)) = true := by decide +kernel

/-- V-B5: the last entry of the last table. -/
theorem test_rdTable_last_entry :
    passes (exec (.rdTable 3 0xFF) State.reset) (fun t => t.response == some (.data 0xDE0506F1)) = true := by decide +kernel

/-- 95_test_vectors.md section 2.2: entry 255 of T0 under 0xFFFFFFFF. -/
theorem test_rdTable_entry_255 :
    passes (exec (.rdTable 0 0xFF) (block 0xFFFFFFFF 0)) (fun t => t.response == some (.data 0x01FFFFFF)) = true := by
  decide +kernel

/-- V-CT4. -/
theorem test_wrCtrl_resets :
    passes (exec (.wrCtrl 1) { block 0xEDB88320 0x174841BC with alg := .sliced }) (fun t =>
      t.alg == .simple && t.crc == 0xFFFFFFFF && t.phase == .ready) = true := by decide +kernel

/-- V-CT5. -/
theorem test_wrCtrl_ignores_reserved_bits :
    passes (exec (.wrCtrl 0xFFFFFFFC) { block 0xEDB88320 0x174841BC with alg := .sliced }) (fun t =>
      t.alg == .simple && t.crc == 0x174841BC && t.phase == .accumulating) = true := by decide +kernel

/-- R90's worked example: RESET reads 0. -/
theorem test_rdCtrl_sliced :
    passes (exec .rdCtrl { State.reset with alg := .sliced }) (fun t => t.response == some (.data 2)) = true := by
  decide +kernel

/-- V-CT8. -/
theorem test_rdDigest_of_a :
    passes (exec .rdDigest (block 0xEDB88320 0x174841BC)) (fun t =>
      t.response == some (.data 0xE8B7BE43) && t.crc == 0x174841BC) = true := by decide +kernel

/-- R95's worked example. -/
theorem test_rdStatus_0x53 :
    passes (exec .rdStatus { block 0xEDB88320 0 with err := true, errCause := 5 }) (fun t =>
      t.response == some (.data 0x00000053)) = true := by decide +kernel

/-- V-CT13. -/
theorem test_wrStatus_bit_0_clears_nothing :
    passes (exec (.wrStatus 1) { block 0xEDB88320 0 with err := true, errCause := 5 }) (fun t =>
      t.err && t.errCause == 5 && t.phase == .accumulating) = true := by decide +kernel

/-- V-CT14. -/
theorem test_wrStatus_clears :
    passes (exec (.wrStatus 0xFFFFFFFF) { block 0xEDB88320 0 with err := true, errCause := 5 }) (fun t =>
      !t.err && t.errCause == 0 && t.phase == .accumulating) = true := by decide +kernel

/-- 95_test_vectors.md section 3, "00 (one zero byte)": this fold reads entry 255. -/
theorem test_wr8Data_zero_byte :
    passes (exec (.wr8Data 0) State.reset) (fun t => t.crc == 0x2DFD1072 && t.phase == .accumulating) = true := by
  decide +kernel

/-- 95_test_vectors.md section 4, row 0x82F63B78, c = 0x12345678. -/
theorem test_wr8Data_castagnoli :
    passes (exec (.wr8Data 0xFF) (block 0x82F63B78 0x12345678)) (fun t => t.crc == 0x562E6BC5) = true := by decide +kernel

/-- R104's worked example, on the simple datapath. -/
theorem test_wr32Data_simple :
    passes (exec (.wr32Data 0x64636261) State.reset) (fun t => t.crc == 0x127D32EE && t.phase == .accumulating) = true := by
  decide +kernel

/-- 95_test_vectors.md section 4, row 0xEB31D82E, c = 0x12345678, on the sliced datapath. -/
theorem test_wr32Data_sliced :
    passes (exec (.wr32Data 0xFFFFFFFF) { block 0xEB31D82E 0x12345678 with alg := .sliced }) (fun t =>
      t.crc == 0x57663044) = true := by decide +kernel

/-- First-error capture (95_test_vectors.md section 6): cause 3 after cause 5 leaves cause 5, and is answered. -/
theorem test_second_bus_error :
    passes (performAccess ⟨0xA0000008, 0x1234⟩ { block 0xEDB88320 7 with err := true, errCause := 5 }) (fun t =>
      t.err && t.errCause == 5 && t.crc == 7 && t.response == some (.busError .badWidth)) = true := by decide +kernel

/-- V-RS6's first access, as the first step after reset. -/
theorem test_step_runs_the_arriving_access :
    passes (step (State.reset.withFetchWord 64 0x6180000008)) (fun t => t.crc == 0x174841BC && t.bus == []) = true := by
  decide +kernel

/-- Section 3: the bit-serial reference gives the published digest of "123456789" (GK2). -/
theorem test_crc32_reference :
    crc32 0xEDB88320 [0x31, 0x32, 0x33, 0x34, 0x35, 0x36, 0x37, 0x38, 0x39] = 0xCBF43926 := by decide +kernel

/-- R69, R70: a five-byte `update` is one word write and one byte write. -/
theorem test_update_requests :
    pseudoRequests (.update [0x61, 0x62, 0x63, 0x64, 0x65]) = [⟨0xC0000008, 0x64636261⟩, ⟨0x80000008, 0x65⟩] := by decide

/-! ## Witnesses: states and operands that meet the hypotheses of the statements -/

/-- DecodedFormDeterminesItsRequest, MatchingAccessCompletesNormally: a form of each kind. -/
theorem witness_decoded_form :
    decode ⟨0x80000008, 0xFFFFFF61⟩ = .access (.wr8Data 0x61) ∧ decode ⟨0x40001FFC, 5⟩ = .access (.rdTable 3 0xFF) ∧
    decode ⟨0xC0000008, 0xFFFFFFFF⟩ = .access (.wr32Data 0xFFFFFFFF) := by decide

/-- DescriptorFieldsAreRecovered, CauseFollowsThePriorityOrder, ReservedBitsSetIsNoAccess, and the clauses of
DecoderAnswersInvalidOrRowOrCause: RSV = 0 with a row and without one, and RSV not 0. -/
theorem witness_verdict_clauses :
    (adReserved 0x40001FFC = 0 ∧ ∃ row ∈ opcodeMap, row.accepts 0x40001FFC = true) ∧
    (adReserved 0x40001FFE = 0 ∧ ∀ row ∈ opcodeMap, row.accepts 0x40001FFE = false) ∧
    adReserved 0x00002000 ≠ 0 ∧ adReserved 0x10000000 ≠ 0 := by
  refine ⟨⟨by decide, ⟨0x40001000, 0xFFFFF003, fun ad _ => .rdTable (tableNumber ad) (tableIndex ad)⟩,
    by simp [opcodeMap], ?_⟩, ⟨by decide, ?_⟩,
    by decide, by decide⟩
  · show (0x40001FFC#32 &&& 0xFFFFF003#32 == 0x40001000#32) = true
    decide
  · simp only [opcodeMap, List.mem_cons, List.not_mem_nil, or_false, forall_eq_or_imp, forall_eq, Row.accepts]
    decide

/-- CauseFollowsThePriorityOrder: each clause at a boundary offset. -/
theorem witness_cause_clauses :
    cause true (accessBytes 3) 0x1FFC = some .misaligned ∧ cause false (accessBytes 2) 0x014 = some .unmapped ∧
    cause false (accessBytes 0) 0xFFF = some .unmapped ∧ cause false (accessBytes 0) 0x1FFF = some .badWidth ∧
    cause true (accessBytes 2) 0x1000 = some .readOnly ∧ cause true (accessBytes 2) 0x00C = some .readOnly ∧
    cause false (accessBytes 0) 0x008 = some .writeOnly ∧ cause true (accessBytes 2) 0x010 = none := by decide

/-- MisalignedAccessIsRefused, RdTableReturnsTheEntry, ReservedBitsAndOffsetsHaveNoEffect: boundary offsets of their ranges. The sizes
other than 2 are those of WrPolyLoadsBuildsAndRestarts, RdPolyReturnsThePolynomial, RdStatusReturnsTheFlags and
WrStatusClearsTheError too. -/
theorem witness_offsets :
    (0x001#13).toNat % 2 ^ (1#2).toNat ≠ 0 ∧ (0x1FFF#13).toNat % 2 ^ (3#2).toNat ≠ 0 ∧
    (0x1000 ≤ (0x1000#13).toNat ∧ (0x1000#13).toNat % 4 = 0) ∧ (0x1000 ≤ (0x1FFF#13).toNat ∧ (0x1FFF#13).toNat % 4 ≠ 0) ∧
    (0x1000 ≤ (0x1FFC#13).toNat ∧ (0x1FFC#13).toNat % 4 = 0) ∧ (0#2 : BitVec 2) ≠ 2 ∧ (3#2 : BitVec 2) ≠ 2 ∧
    ((0x001#13).toNat ∉ [0x000, 0x004, 0x008, 0x00C, 0x010] ∧ (0x001#13).toNat < 0x1000) ∧
    ((0xFFF#13).toNat ∉ [0x000, 0x004, 0x008, 0x00C, 0x010] ∧ (0xFFF#13).toNat < 0x1000) := by decide

/-- ReservedBitsAndOffsetsHaveNoEffect: reads answered with data, and write data that differ in reserved bits alone. -/
theorem witness_reserved_bits :
    (∃ t d, exec .rdCtrl State.reset = .next t ∧ t.response = some (.data d)) ∧
    (∃ t d, exec .rdStatus State.reset = .next t ∧ t.response = some (.data d)) ∧
    (0xFFFFFFFE : Word).extractLsb' 0 2 = (0x00000002 : Word).extractLsb' 0 2 ∧
    (0xFFFFFFFD : Word).getLsbD 1 = (0x00000000 : Word).getLsbD 1 :=
  ⟨⟨_, _, rfl, rfl⟩, ⟨_, _, rfl, rfl⟩, by decide, by decide⟩

/-- StepHandlesTheFirstArrival, each clause; EngineMovesAsTheStateMachineSays; StepsPerformAccessesInArrivalOrder;
ResetAbandonsTheCutAccessAndHoldsTheRest; BlockResetSetsEveryElement. -/
theorem witness_arrivals :
    State.reset.bus = [] ∧
    (State.reset.withFetchWord 32 0x80000008).bus = [⟨0x80000008, 0⟩].map BusEvent.access ++ [] ∧
    decode ⟨0x40000008, 0⟩ = .busError .writeOnly ∧ decode ⟨0xC0002000, 0⟩ = .invalid ∧
    decodeTableWord 32 0x80000008 = some (.wr8Data 0) ∧
    State.resetArrives { State.reset with bus := [.blockReset (some ⟨0x80000008, 0⟩), .access ⟨0x4000000C, 0⟩] } ∧
    State.resetArrives { State.reset with bus := [.blockReset none] } ∧
    (∃ t, step (State.reset.withFetchWord 32 0x80000008) = .next t) :=
  ⟨rfl, by decide, by decide, by decide, by decide, ⟨_, _, rfl⟩, ⟨_, _, rfl⟩, _, rfl⟩

/-- StepKeepsTheInvariant: a state other than reset's, accumulating with an error recorded, and its step. -/
theorem witness_invariant_premise :
    Inv ({ block 0 7 with err := true, errCause := 5 }.withFetchWord 32 0x80000008) ∧
    ∃ t, step ({ block 0 7 with err := true, errCause := 5 }.withFetchWord 32 0x80000008) = .next t :=
  ⟨⟨rfl, by decide, by decide, fun h => nomatch h⟩, _, rfl⟩

/-- RdTableReturnsTheEntry, CtrlResetEqualsRewritingThePolynomial, WordWriteEqualsFourByteWrites, ChunkingLeavesTheSameDigest,
NewAndResetGiveACleanStart,
AlgIsSeenOnlyByRdCtrl: tables of the polynomial, and accesses other than RD.CTRL that are performed. -/
theorem witness_tables_of_the_polynomial :
    State.reset.tbl = buildSlicedTable State.reset.poly ∧ (block 0xEB31D82E 7).tbl = buildSlicedTable (block 0xEB31D82E 7).poly ∧
    (0x00000003 : Word).getLsbD 0 = true ∧ decode ⟨0xC0000008, 0⟩ ≠ .access .rdCtrl ∧
    ∃ t, performAll [⟨0xC0000008, 0⟩] State.reset = .next t :=
  ⟨rfl, rfl, by decide, by decide, _, rfl⟩

/-- DigestIsTheCrcOfTheStream: a clean start, and a sequence of a word write, an ALG change, a refused access and a read. -/
theorem witness_stream :
    CleanStart 0xEDB88320 State.reset ∧
    (∀ r ∈ [⟨0xC0000008, 0x64636261⟩, ⟨0xC0000004, 2⟩, ⟨0x40000008, 0⟩, ⟨0x4000000C, 0⟩], Request.keepsStream r = true) ∧
    streamBytes [⟨0xC0000008, 0x64636261⟩, ⟨0xC0000004, 2⟩, ⟨0x40000008, 0⟩, ⟨0x4000000C, 0⟩] = [0x61, 0x62, 0x63, 0x64] :=
  ⟨⟨rfl, rfl, rfl, rfl, rfl⟩, by decide, by decide⟩

/-- CrcDependsOnPolynomialStartAndBytes: two blocks that agree on POLY and CRC, differ in ALG and PHASE, and get the same bytes. -/
theorem witness_same_bytes :
    (block 0xEDB88320 0xFFFFFFFF).poly = State.reset.poly ∧ (block 0xEDB88320 0xFFFFFFFF).crc = State.reset.crc ∧
    streamBytes [⟨0xC0000008, 0x64636261⟩] =
      streamBytes [⟨0x80000008, 0x61⟩, ⟨0x80000008, 0x62⟩, ⟨0x80000008, 0x63⟩, ⟨0x4000000C, 0⟩, ⟨0x80000008, 0x64⟩] ∧
    (∀ r ∈ [⟨0x80000008, 0x61⟩, ⟨0x80000008, 0x62⟩, ⟨0x80000008, 0x63⟩, ⟨0x4000000C, 0⟩, ⟨0x80000008, 0x64⟩],
      Request.keepsStream r = true) := ⟨rfl, rfl, by decide, by decide⟩

/-- DataWritesFrame, ControlWritesFrame, PolyWriteFrame, ReadsHaveNoSideEffects: each form gives a next state; PolyWriteFrame's
addresses at both ends. -/
theorem witness_frames :
    (∃ t, exec (.wr8Data 0xFF) State.reset = .next t) ∧ (∃ t, exec (.wr32Data 0) State.reset = .next t) ∧
    (∃ t, exec (.wrCtrl 0xFFFFFFFC) State.reset = .next t ∧ (0xFFFFFFFC : Word).getLsbD 0 = false) ∧
    (∃ t, exec (.wrStatus 1) State.reset = .next t ∧ (1 : Word).getLsbD 1 = false) ∧
    (∃ t, exec (.wrPoly 0) State.reset = .next t) ∧ Instr.isRead .rdDigest = true ∧
    1024 * (0#2).toNat + 4 * (0#8).toNat + 0 = 0 ∧ 1024 * (3#2).toNat + 4 * (255#8).toNat + 3 = 4095 :=
  ⟨⟨_, rfl⟩, ⟨_, rfl⟩, ⟨_, rfl, by decide⟩, ⟨_, rfl, by decide⟩, ⟨_, rfl⟩, rfl, rfl, rfl⟩

/-- RegistersChangeOnlyByTheirWriters: steps that change POLY, ALG, and CRC with PHASE. -/
theorem witness_register_changes :
    passes (step (State.reset.withFetchWord 64 0x82F63B78C0000000)) (fun t => t.poly != State.reset.poly) = true ∧
    passes (step (State.reset.withFetchWord 64 0x00000002C0000004)) (fun t => t.alg != State.reset.alg) = true ∧
    passes (step (State.reset.withFetchWord 64 0x0000006180000008)) (fun t =>
      t.crc != State.reset.crc && t.phase != State.reset.phase) = true := by decide +kernel

/-- RdStatusReturnsTheFlags, WrStatusClearsTheError, BusErrorCapturesTheFirstCauseOnly, ErrStaysSetUntilCleared: a
set ERR that a step keeps, and one that a step clears. -/
theorem witness_error_flag :
    passes (step ({ State.reset with err := true, errCause := 5 }.withFetchWord 32 0xA0000008)) (fun t => t.err) = true ∧
    passes (step ({ State.reset with err := true, errCause := 5 }.withFetchWord 64 0x2C0000010)) (fun t => !t.err) = true ∧
    ((0#4 : BitVec 4) = 0 ↔ State.reset.err = false) := by decide +kernel

/-- ErrClearMeansNothingWasRefused, HostPolicyDecidesWhetherTheProgramGoesOn: a sequence with a refused access and one without. -/
theorem witness_programs :
    State.reset.err = false ∧
    (∃ t, performAll [⟨0x80000008, 0x61⟩, ⟨0x40000008, 0⟩] State.reset = .next t) ∧
    (∀ r ∈ [⟨0x80000008, 0x61⟩, ⟨0x40000008, 0⟩], ∀ i, decode r = .access i → i.clearsError = false) ∧
    (∃ i, decode ⟨0x80000008, 0x61⟩ = .access i) ∧ ∃ c, decode ⟨0x40000008, 0⟩ = .busError c := by
  have h₁ : decode ⟨0x80000008, 0x61⟩ = .access (.wr8Data 0x61) := by decide
  have h₂ : decode ⟨0x40000008, 0⟩ = .busError .writeOnly := by decide
  refine ⟨rfl, ⟨_, by simp only [performAll, performAccess, h₁, h₂]; rfl⟩, ?_, ⟨_, h₁⟩, ⟨_, h₂⟩⟩
  intro r hr i hi
  simp only [List.mem_cons, List.not_mem_nil, or_false] at hr
  rcases hr with rfl | rfl
  · rw [h₁] at hi
    cases hi
    rfl
  · rw [h₂] at hi
    cases hi

/-- ProgramLinesAssembleToTheirDescriptors: well-formed raw lines at both ends of the aperture. -/
theorem witness_lines : (Line.wrRaw 8 0 0).wf = true ∧ (Line.wrRaw 64 0x1FFF 0).wf = true := by decide

/-- HostAccessReachesItsOffsetAndLane, AccessChangesOnlyTheAddressedInstance: two instances side by side, each reached at its first
or last word. -/
theorem witness_platform :
    Platform.wf ⟨[(0x1000, State.reset), (0x3000, State.reset)]⟩ ∧ (0x1FFC#13).toNat % 4 = 0 ∧
    inAperture 0x1000 0x2FFF = true ∧ inAperture 0x1000 0x3000 = false ∧ inAperture 0x3000 0x3000 = true ∧
    (∃ q, Platform.access ⟨false, 0x300C, 2, 0⟩ ⟨[(0x1000, State.reset), (0x3000, State.reset)]⟩ = .next q) :=
  ⟨⟨by simp, by simp [Config.apertureBytes]⟩, by decide, by decide, by decide, by decide, _, rfl⟩

end Sys2Proof.Tests
end

section
/-! PROOFS of the family 00_scope: the byte fold is the bit-serial CRC step (R1, R80, R100), a host access reaches its offset and
lane (R9, R43, R49, R50), and the two forms of a digest read back to it (R4). -/

namespace Sys2Proof

/-! ## The fields of a built descriptor (R60) -/

section
variable (wr : Bool) (sz : BitVec 2) (off : BitVec 13)

@[simp] theorem adWrite_descriptor : adWrite (descriptor wr sz off) = wr := by
  simp only [adWrite, descriptor, BitVec.getLsbD_append]
  cases wr <;> rfl

@[simp] theorem adSize_descriptor : adSize (descriptor wr sz off) = sz := by
  unfold adSize descriptor
  rw [BitVec.extractLsb'_append_eq_of_le (by decide), BitVec.extractLsb'_append_eq_of_le (by decide),
    BitVec.extractLsb'_append_eq_right]

@[simp] theorem adReserved_descriptor : adReserved (descriptor wr sz off) = 0 := by
  unfold adReserved descriptor
  rw [BitVec.extractLsb'_append_eq_of_le (by decide), BitVec.extractLsb'_append_eq_right]
  rfl

@[simp] theorem adOffset_descriptor : adOffset (descriptor wr sz off) = off :=
  BitVec.extractLsb'_append_eq_right

end

namespace Machine

/-! ## The bit-serial CRC step as iterations of the table builder's loop -/

theorem crcBit_false (p c : Word) : crcBit p c false = tableStep p c := by
  simp [crcBit, tableStep]

/-- An iteration of R80 on a sum feeds the second summand's bit 0 in as an input bit and moves the rest of it right. -/
theorem tableStep_xor (p x y : Word) : tableStep p (x ^^^ y) = crcBit p x (y.getLsbD 0) ^^^ (y >>> 1) := by
  have hshift : (x ^^^ y) >>> 1 = (x >>> 1) ^^^ (y >>> 1) := BitVec.ushiftRight_xor_distrib x y 1
  unfold tableStep crcBit
  rw [BitVec.getLsbD_xor, hshift]
  split
  · ac_rfl
  · rfl

/-- Over `n` iterations the second summand's low bits are fed in one by one, lowest first. -/
theorem tableStep_iterate_xor (p x y : Word) (n : Nat) :
    (tableStep p)^[n] (x ^^^ y) =
      (List.range n).foldl (fun c j => crcBit p c (y.getLsbD j)) x ^^^ (y >>> n) := by
  induction n with
  | zero => simp
  | succ n ih =>
    have hbit : (y >>> n).getLsbD 0 = y.getLsbD n := by rw [BitVec.getLsbD_ushiftRight, Nat.add_zero]
    rw [Function.iterate_succ_apply', ih, tableStep_xor, hbit, BitVec.shiftRight_add, List.range_succ,
      List.foldl_append, List.foldl_cons, List.foldl_nil]

/-- A summand whose low `n` bits are 0 only moves right in `n` iterations. -/
theorem tableStep_iterate_xor_of_low_zero (p x y : Word) (n : Nat) (hy : ∀ j < n, y.getLsbD j = false) :
    (tableStep p)^[n] (x ^^^ y) = (tableStep p)^[n] x ^^^ (y >>> n) := by
  induction n with
  | zero => simp
  | succ n ih =>
    have hbit : (y >>> n).getLsbD 0 = false := by
      rw [BitVec.getLsbD_ushiftRight, Nat.add_zero, hy n n.lt_succ_self]
    rw [Function.iterate_succ_apply', ih fun j hj => hy j (hj.trans n.lt_succ_self), tableStep_xor, hbit,
      crcBit_false, BitVec.shiftRight_add, Function.iterate_succ_apply']

/-- A zero-extended byte has no bit above bit 7. -/
theorem byte_shiftRight_eight (b : Byte) : b.setWidth 32 >>> 8 = 0#32 := by
  apply BitVec.eq_of_toNat_eq
  rw [BitVec.toNat_ushiftRight, BitVec.toNat_setWidth_of_le (by decide), Nat.shiftRight_eq_div_pow,
    Nat.div_eq_of_lt b.isLt]
  rfl

/-- Eight input bits are the byte added to the register's low end, then eight iterations of R80. -/
theorem crcByte_eq_tableStep_iterate (p c : Word) (b : Byte) :
    crcByte p c b = (tableStep p)^[8] (c ^^^ b.setWidth 32) := by
  have hbits : ∀ c' : Word, ∀ j ∈ List.range 8,
      crcBit p c' (b.getLsbD j) = crcBit p c' ((b.setWidth 32).getLsbD j) := by
    intro c' j hj
    have hj8 : j < 8 := List.mem_range.mp hj
    rw [BitVec.getLsbD_setWidth, decide_eq_true (by omega : j < 32), Bool.true_and]
  rw [tableStep_iterate_xor, byte_shiftRight_eight, BitVec.xor_zero]
  exact List.foldl_ext _ _ c hbits

/-- A word is its low byte plus its other 24 bits. -/
theorem lowByte_xor_highBits (x : Word) : (x.setWidth 8).setWidth 32 ^^^ (x >>> 8 <<< 8) = x := by
  ext i hi
  by_cases h8 : i < 8
  · simp [h8, BitVec.getLsbD_eq_getElem hi]
  · simp [h8, Nat.add_sub_cancel' (Nat.le_of_not_lt h8), BitVec.getLsbD_eq_getElem hi]

theorem highBits_shiftRight_eight (x : Word) : x >>> 8 <<< 8 >>> 8 = x >>> 8 := by
  conv_rhs => rw [← lowByte_xor_highBits x, BitVec.ushiftRight_xor_distrib, byte_shiftRight_eight, BitVec.zero_xor]

/-- R100's mask drops nothing: a right shift by 8 leaves 24 bits. -/
theorem shiftRight_eight_and_mask (c : Word) : (c >>> 8) &&& 0x00FFFFFF#32 = c >>> 8 := by
  apply BitVec.eq_of_toNat_eq
  rw [BitVec.toNat_and, show (0x00FFFFFF#32).toNat = 2 ^ 24 - 1 from rfl, Nat.and_two_pow_sub_one_eq_mod,
    BitVec.toNat_ushiftRight, Nat.shiftRight_eq_div_pow]
  exact Nat.mod_eq_of_lt (by omega)

/-- Eight iterations of R80 on a word: its low byte selects the table entry, and its other 24 bits only move right. -/
theorem tableStep_iterate_eight (p x : Word) :
    (tableStep p)^[8] x = (x >>> 8) ^^^ tableEntry p (x.setWidth 8) := by
  have hlow : ∀ j < 8, (x >>> 8 <<< 8).getLsbD j = false := fun j hj => by simp [hj]
  calc (tableStep p)^[8] x
      = (tableStep p)^[8] ((x.setWidth 8).setWidth 32 ^^^ (x >>> 8 <<< 8)) := by rw [lowByte_xor_highBits]
    _ = tableEntry p (x.setWidth 8) ^^^ (x >>> 8 <<< 8 >>> 8) := tableStep_iterate_xor_of_low_zero p _ _ 8 hlow
    _ = (x >>> 8) ^^^ tableEntry p (x.setWidth 8) := by rw [highBits_shiftRight_eight, BitVec.xor_comm]

/-- The byte fold through the built table (R100) is eight iterations of R80 on the register with the byte added. -/
theorem fold8_eq_tableStep_iterate (p c : Word) (b : Byte) :
    fold8 (buildSlicedTable p) c b = (tableStep p)^[8] (c ^^^ b.setWidth 32) := by
  rw [fold8_eq, buildSlicedTable_entry_zero, shiftRight_eight_and_mask, tableStep_iterate_eight,
    BitVec.ushiftRight_xor_distrib, byte_shiftRight_eight, BitVec.xor_zero]

/-- Settles O34: both sides are eight iterations of R80's loop on `c ^^^ b`. -/
theorem byteFoldIsTheBitSerialCrc : Obligations.ByteFoldIsTheBitSerialCrc := by
  intro p c b
  rw [fold8_eq_tableStep_iterate, crcByte_eq_tableStep_iterate]

/-! ## A host access at its aperture (R9, R43) -/

/-- The request of an access at `P_BASE + OFF` does not depend on P_BASE (R9). -/
theorem request_base_add (wr : Bool) (base : Nat) (off : BitVec 13) (sz : BitVec 2) (d : Word) :
    HostAccess.request base ⟨wr, base + off.toNat, sz, d⟩ =
      ⟨descriptor wr sz off,
        if wr then (d &&& bytesMask (accessBytes sz)) <<< (8 * (off.toNat % 4)) else 0⟩ := by
  simp [HostAccess.request]

/-- A byte put on the lane of an offset is read back from that lane (R43). -/
theorem byteLane_shiftLeft (off : BitVec 13) (d : Word) :
    byteLane off ((d &&& bytesMask 1) <<< (8 * (off.toNat % 4))) = d.setWidth 8 := by
  ext i hi
  have hlane : 8 * (off.toNat % 4) + i < 32 := by omega
  have hmask : (bytesMask 1).getLsbD i = true :=
    (by decide : ∀ j < 8, (bytesMask 1).getLsbD j = true) i hi
  rw [← BitVec.getLsbD_eq_getElem, ← BitVec.getLsbD_eq_getElem]
  simp [byteLane, hlane, hmask, hi, -BitVec.getLsbD_eq_getElem]

theorem bytesMask_four : bytesMask 4 = BitVec.allOnes 32 := by decide

/-- Settles O56: the offset is the address less P_BASE, and the data is put on the offset's lane. -/
theorem hostAccessReachesItsOffsetAndLane : Obligations.HostAccessReachesItsOffsetAndLane := by
  intro wr base off sz d
  have hzero := request_base_add wr 0 off sz d
  rw [Nat.zero_add] at hzero
  rw [request_base_add]
  refine ⟨hzero.symm, adWrite_descriptor .., adSize_descriptor .., adReserved_descriptor .., adOffset_descriptor ..,
    ?_, ?_⟩
  · rintro rfl rfl
    exact byteLane_shiftLeft off d
  · rintro rfl rfl haligned
    show (d &&& bytesMask 4) <<< (8 * (off.toNat % 4)) = d
    rw [haligned, bytesMask_four, BitVec.and_allOnes, Nat.mul_zero, BitVec.shiftLeft_zero]

/-! ## The two forms of a digest (R4) -/

/-- The bytes of a word, the last one highest, make it up (R42). -/
theorem wordByte_append (w : Word) : wordByte w 3 ++ wordByte w 2 ++ wordByte w 1 ++ wordByte w 0 = w := by
  unfold wordByte
  rw [BitVec.extractLsb'_append_extractLsb'_eq_extractLsb' (start₂ := 8 * 3) (start₁ := 8 * 2) rfl,
    BitVec.extractLsb'_append_extractLsb'_eq_extractLsb' (start₂ := 8 * 2) (start₁ := 8 * 1) rfl,
    BitVec.extractLsb'_append_extractLsb'_eq_extractLsb' (start₂ := 8 * 1) (start₁ := 8 * 0) rfl]
  exact BitVec.extractLsb'_eq_self

/-- One more hexadecimal digit, read below the digits above it. -/
theorem shiftRight_toNat_eq_hexDigit (d : Word) (n : Nat) :
    (d >>> n).toNat = 16 * (d >>> (n + 4)).toNat + (d.extractLsb' n 4).toNat := by
  rw [BitVec.shiftRight_add, BitVec.toNat_ushiftRight (d >>> n), BitVec.extractLsb'_toNat, Nat.shiftRight_eq_div_pow,
    ← BitVec.toNat_ushiftRight]
  exact (Nat.div_add_mod ..).symm

/-- The eight digits, the first one highest, make the digest up. -/
theorem digestHex_foldl (d : Word) : (digestHex d).foldl (fun n h => 16 * n + h.toNat) 0 = d.toNat := by
  have htop : (d >>> 32).toNat = 0 := by
    rw [BitVec.toNat_ushiftRight, Nat.shiftRight_eq_div_pow, Nat.div_eq_of_lt d.isLt]
  calc (digestHex d).foldl (fun n h => 16 * n + h.toNat) 0
      = (digestHex d).foldl (fun n h => 16 * n + h.toNat) (d >>> 32).toNat := by rw [htop]
    _ = (d >>> 0).toNat := by
      simp only [digestHex, List.foldl_cons, List.foldl_nil, ← shiftRight_toNat_eq_hexDigit]
    _ = d.toNat := rfl

/-- Settles O58: the raw form is the word's bytes from the lowest, the hexadecimal form its digits from the highest. -/
theorem rawAndHexFormsReadBackToTheDigest : Obligations.RawAndHexFormsReadBackToTheDigest :=
  fun d => ⟨⟨_, _, _, _, rfl, wordByte_append d⟩, rfl, digestHex_foldl d⟩

end Machine
end Sys2Proof
end

section
/-! PROOFS of the family 10_state: every step keeps the invariant of the block (R24, R97, R120, R123), each register is changed by
its writers alone (R21, R23 to R26), and reserved bits and offsets have no effect (R38). -/

namespace Sys2Proof

theorem Cause.code_ne_zero (c : Cause) : c.code ≠ 0#4 := by cases c <;> decide

theorem Cause.code_toNat_le (c : Cause) : c.code.toNat ≤ 5 := by cases c <;> decide

/-! ## Reserved offsets in the decoder (R38, R66, R122) -/

theorem accessBytes_eq_two_pow (sz : BitVec 2) : accessBytes sz = 2 ^ sz.toNat := Nat.one_shiftLeft _

/-- OFF[12], which selects the TABLE window, is set from 0x1000 on. -/
theorem getLsbD_twelve_iff (off : BitVec 13) : off.getLsbD 12 = true ↔ 0x1000 ≤ off.toNat := by
  rw [show off.getLsbD 12 = off.msb from rfl, BitVec.msb_eq_decide, decide_eq_true_iff]

/-- An offset has no target when it is none of the five registers' and below the TABLE window. -/
theorem targetAt_eq_none_iff {off : BitVec 13} :
    targetAt off = none ↔ off.toNat ∉ [0x000, 0x004, 0x008, 0x00C, 0x010] ∧ off.toNat < 0x1000 := by
  have htable : off.getLsbD 12 = false ↔ off.toNat < 0x1000 := by
    rw [← Bool.not_eq_true, getLsbD_twelve_iff, Nat.not_le]
  unfold targetAt
  simp [ite_eq_iff, and_assoc, ← BitVec.toNat_inj, htable, -BitVec.getLsbD_eq_getElem]

theorem Row.accepts_full_mask {p ad : Word} {make : Word → Word → Instr} :
    Row.accepts ⟨p, 0xFFFFFFFF, make⟩ ad = true ↔ ad = p := by
  show (ad &&& BitVec.allOnes 32 == p) = true ↔ ad = p
  rw [BitVec.and_allOnes, beq_iff_eq]

/-- Every row of R65 is at a mapped offset. -/
theorem targetAt_ne_none_of_accepts {row : Row} {ad : Word} (hrow : row ∈ opcodeMap) (h : row.accepts ad = true) :
    targetAt (adOffset ad) ≠ none := by
  simp only [opcodeMap, List.mem_cons, List.not_mem_nil, or_false] at hrow
  rcases hrow with rfl | rfl | rfl | rfl | rfl | rfl | rfl | rfl | rfl | rfl
  case inr.inr.inl =>
    have hbit : (adOffset ad).getLsbD 12 = true := by
      have hand : ad &&& 0xFFFFF003#32 = 0x40001000#32 := beq_iff_eq.mp h
      simpa [adOffset, -BitVec.getLsbD_eq_getElem] using congrArg (BitVec.getLsbD · 12) hand
    intro hnone
    exact absurd ((getLsbD_twelve_iff _).mp hbit) (Nat.not_le.mpr (targetAt_eq_none_iff.mp hnone).2)
  all_goals
    rw [Row.accepts_full_mask.mp h]
    decide

/-- At a reserved offset no row matches, and the cause is one of R122's first two. -/
theorem decode_of_targetAt_eq_none {r : Request} (hrsv : adReserved r.ad = 0) (h : targetAt (adOffset r.ad) = none) :
    decode r =
      .busError (if (adOffset r.ad).toNat % accessBytes (adSize r.ad) ≠ 0 then .misaligned else .unmapped) := by
  have hnone : opcodeMap.find? (fun row => row.accepts r.ad) = none :=
    List.find?_eq_none.mpr fun row hrow hacc => targetAt_ne_none_of_accepts hrow hacc h
  have hcause : cause (adWrite r.ad) (accessBytes (adSize r.ad)) (adOffset r.ad) =
      some (if (adOffset r.ad).toNat % accessBytes (adSize r.ad) ≠ 0 then .misaligned else .unmapped) := by
    unfold cause
    split <;> simp [h]
  simp [decode, hrsv, hnone, hcause]

namespace Machine

variable {s t : State} {i : Instr}

/-! ## What an access form can do -/

/-- What performing an access form can do: a read answers its data, and each write does its rule's effect. -/
theorem exec_next (h : exec i s = .next t) :
    (i.isRead = true ∧ ∃ d, t = s.respond (.data d)) ∨
    (∃ v, i = .wrPoly v ∧ t = (s.loadPoly v).restartCrc.respond .done) ∨
    (∃ v, i = .wrCtrl v ∧ v.getLsbD 0 = true ∧ t = (s.setAlg (ctrlAlg v)).restartCrc.respond .done) ∨
    (∃ v, i = .wrCtrl v ∧ v.getLsbD 0 = false ∧ t = (s.setAlg (ctrlAlg v)).respond .done) ∨
    (∃ v, i = .wrStatus v ∧ v.getLsbD 1 = true ∧ t = s.clearError.respond .done) ∨
    (∃ v, i = .wrStatus v ∧ v.getLsbD 1 = false ∧ t = s.respond .done) ∨
    (∃ b, i = .wr8Data b ∧ t = (s.setCrc (fold8 s.tbl s.crc b)).setAccumulating.respond .done) ∨
    (∃ w, i = .wr32Data w ∧ t = (s.setCrc (fold32 s.alg s.tbl s.crc w)).setAccumulating.respond .done) := by
  cases i with
  | rdPoly => exact .inl ⟨rfl, _, (Host.Outcome.next.inj h).symm⟩
  | rdTable k j => exact .inl ⟨rfl, _, (Host.Outcome.next.inj h).symm⟩
  | rdCtrl => exact .inl ⟨rfl, _, (Host.Outcome.next.inj h).symm⟩
  | rdDigest => exact .inl ⟨rfl, _, (Host.Outcome.next.inj h).symm⟩
  | rdStatus => exact .inl ⟨rfl, _, (Host.Outcome.next.inj h).symm⟩
  | wrPoly v => exact .inr (.inl ⟨v, rfl, (Host.Outcome.next.inj h).symm⟩)
  | wrCtrl v =>
    rw [exec_wrCtrl] at h
    split at h
    next hbit => exact .inr (.inr (.inl ⟨v, rfl, hbit, (Host.Outcome.next.inj h).symm⟩))
    next hbit =>
      exact .inr (.inr (.inr (.inl ⟨v, rfl, eq_false_of_ne_true hbit, (Host.Outcome.next.inj h).symm⟩)))
  | wrStatus v =>
    rw [exec_wrStatus] at h
    split at h
    next hbit => exact .inr (.inr (.inr (.inr (.inl ⟨v, rfl, hbit, (Host.Outcome.next.inj h).symm⟩))))
    next hbit =>
      exact .inr (.inr (.inr (.inr (.inr (.inl ⟨v, rfl, eq_false_of_ne_true hbit, (Host.Outcome.next.inj h).symm⟩)))))
  | wr8Data b => simpa [exec_wr8Data, Instr.isRead] using h.symm
  | wr32Data w => simpa [exec_wr32Data, Instr.isRead] using h.symm

/-! ## The invariant (R24, R97, R123), one lemma per operation on the state -/

namespace Inv

theorem withBus (hs : Inv s) (bus : List BusEvent) : Inv { s with bus := bus } :=
  ⟨hs.tables, hs.errIff, hs.causeRange, hs.readyOnes⟩

theorem respond (hs : Inv s) (r : Response) : Inv (s.respond r) :=
  ⟨hs.tables, hs.errIff, hs.causeRange, hs.readyOnes⟩

theorem setAlg (hs : Inv s) (a : Alg) : Inv (s.setAlg a) :=
  ⟨hs.tables, hs.errIff, hs.causeRange, hs.readyOnes⟩

theorem loadPoly (hs : Inv s) (v : Word) : Inv (s.loadPoly v) :=
  ⟨rfl, hs.errIff, hs.causeRange, hs.readyOnes⟩

theorem restartCrc (hs : Inv s) : Inv s.restartCrc :=
  ⟨hs.tables, hs.errIff, hs.causeRange, fun _ => rfl⟩

/-- A fold leaves Ready, so the new CRC may be any. -/
theorem setCrc_setAccumulating (hs : Inv s) (c : Word) : Inv (s.setCrc c).setAccumulating :=
  ⟨hs.tables, hs.errIff, hs.causeRange, nofun⟩

theorem clearError (hs : Inv s) : Inv s.clearError :=
  ⟨hs.tables, by simp, by simp, hs.readyOnes⟩

theorem captureError (hs : Inv s) (c : Cause) : Inv (s.captureError c) := by
  cases herr : s.err with
  | true => simpa [State.captureError, herr] using hs
  | false =>
    exact ⟨by simpa using hs.tables, by simp [herr, c.code_ne_zero], by simpa [herr] using c.code_toNat_le,
      by simpa using hs.readyOnes⟩

theorem blockReset (s : State) : Inv s.blockReset :=
  ⟨rfl, by simp, by simp, fun _ => rfl⟩

end Inv

theorem exec_keeps_inv (hs : Inv s) (h : exec i s = .next t) : Inv t := by
  rcases exec_next h with ⟨-, d, rfl⟩ | ⟨v, -, rfl⟩ | ⟨v, -, -, rfl⟩ | ⟨v, -, -, rfl⟩ | ⟨v, -, -, rfl⟩ | ⟨v, -, -, rfl⟩ |
    ⟨b, -, rfl⟩ | ⟨w, -, rfl⟩
  · exact hs.respond _
  · exact (hs.loadPoly v).restartCrc.respond _
  · exact (hs.setAlg _).restartCrc.respond _
  · exact (hs.setAlg _).respond _
  · exact hs.clearError.respond _
  · exact hs.respond _
  · exact (hs.setCrc_setAccumulating _).respond _
  · exact (hs.setCrc_setAccumulating _).respond _

/-- Settles O53: each of the four things a step can do is made of operations that keep the invariant. -/
theorem stepKeepsTheInvariant : Obligations.StepKeepsTheInvariant := by
  intro s t hs h
  rcases step_next h with ⟨-, rfl⟩ | ⟨r, rest, i, -, -, hexec⟩ | ⟨r, rest, c, -, -, rfl⟩ | ⟨-, rest, -, rfl⟩
  · exact hs
  · exact exec_keeps_inv (hs.withBus rest) hexec
  · exact ((hs.withBus rest).captureError c).respond _
  · exact Inv.blockReset _

/-! ## The writers of each register (R21, R23 to R26) -/

/-- A step at which no access form and no reset arrives, idle or with a bus error, leaves the engine's five registers as they
were. -/
theorem step_arrival_or_frame (h : step s = .next t) :
    (∃ i rest, s.arrives i ∧ exec i { s with bus := rest } = .next t) ∨ s.resetArrives ∨
      (t.poly = s.poly ∧ t.tbl = s.tbl ∧ t.alg = s.alg ∧ t.crc = s.crc ∧ t.phase = s.phase) := by
  rcases step_next h with ⟨-, rfl⟩ | ⟨r, rest, i, hbus, hdec, hexec⟩ | ⟨r, rest, c, -, -, rfl⟩ | ⟨a, rest, hbus, -⟩
  · exact .inr (.inr ⟨rfl, rfl, rfl, rfl, rfl⟩)
  · exact .inl ⟨i, rest, ⟨r, rest, hbus, hdec⟩, hexec⟩
  · exact .inr (.inr (by simp))
  · exact .inr (.inl ⟨a, rest, hbus⟩)

theorem step_poly_tbl (h : step s = .next t) :
    ((∃ v, s.arrives (.wrPoly v)) ∨ s.resetArrives) ∨ t.poly = s.poly ∧ t.tbl = s.tbl := by
  rcases step_arrival_or_frame h with ⟨i, rest, harr, hexec⟩ | hreset | ⟨hpoly, htbl, -⟩
  · rcases exec_next hexec with ⟨-, d, rfl⟩ | ⟨v, rfl, -⟩ | ⟨v, -, -, rfl⟩ | ⟨v, -, -, rfl⟩ | ⟨v, -, -, rfl⟩ |
      ⟨v, -, -, rfl⟩ | ⟨b, -, rfl⟩ | ⟨w, -, rfl⟩
    case inr.inl => exact .inl (.inl ⟨v, harr⟩)
    all_goals exact .inr ⟨rfl, rfl⟩
  · exact .inl (.inr hreset)
  · exact .inr ⟨hpoly, htbl⟩

theorem step_alg (h : step s = .next t) :
    ((∃ v, s.arrives (.wrCtrl v)) ∨ s.resetArrives) ∨ t.alg = s.alg := by
  rcases step_arrival_or_frame h with ⟨i, rest, harr, hexec⟩ | hreset | ⟨-, -, halg, -⟩
  · rcases exec_next hexec with ⟨-, d, rfl⟩ | ⟨v, -, rfl⟩ | ⟨v, rfl, -⟩ | ⟨v, rfl, -⟩ | ⟨v, -, -, rfl⟩ |
      ⟨v, -, -, rfl⟩ | ⟨b, -, rfl⟩ | ⟨w, -, rfl⟩
    case inr.inr.inl | inr.inr.inr.inl => exact .inl (.inl ⟨v, harr⟩)
    all_goals exact .inr rfl
  · exact .inl (.inr hreset)
  · exact .inr halg

theorem step_crc_phase (h : step s = .next t) :
    ((∃ b, s.arrives (.wr8Data b)) ∨ (∃ w, s.arrives (.wr32Data w)) ∨
      (∃ v, s.arrives (.wrCtrl v) ∧ v.getLsbD 0 = true) ∨ (∃ v, s.arrives (.wrPoly v)) ∨ s.resetArrives) ∨
    t.crc = s.crc ∧ t.phase = s.phase := by
  rcases step_arrival_or_frame h with ⟨i, rest, harr, hexec⟩ | hreset | ⟨-, -, -, hcrc, hphase⟩
  · rcases exec_next hexec with ⟨-, d, rfl⟩ | ⟨v, rfl, -⟩ | ⟨v, rfl, hbit, -⟩ | ⟨v, -, -, rfl⟩ | ⟨v, -, -, rfl⟩ |
      ⟨v, -, -, rfl⟩ | ⟨b, rfl, -⟩ | ⟨w, rfl, -⟩
    · exact .inr ⟨rfl, rfl⟩
    · exact .inl (.inr (.inr (.inr (.inl ⟨v, harr⟩))))
    · exact .inl (.inr (.inr (.inl ⟨v, harr, hbit⟩)))
    · exact .inr ⟨rfl, rfl⟩
    · exact .inr ⟨rfl, rfl⟩
    · exact .inr ⟨rfl, rfl⟩
    · exact .inl (.inl ⟨b, harr⟩)
    · exact .inl (.inr (.inl ⟨w, harr⟩))
  · exact .inl (.inr (.inr (.inr (.inr hreset))))
  · exact .inr ⟨hcrc, hphase⟩

/-- Settles O44: a register that none of its writers reaches is as it was. -/
theorem registersChangeOnlyByTheirWriters : Obligations.RegistersChangeOnlyByTheirWriters := fun _ _ h =>
  ⟨fun hne => (step_poly_tbl h).resolve_right fun ⟨hpoly, htbl⟩ => hne.elim (· hpoly) (· htbl),
    (step_alg h).resolve_right,
    fun hne => (step_crc_phase h).resolve_right fun ⟨hcrc, _⟩ => hne hcrc,
    fun hne => (step_crc_phase h).resolve_right fun ⟨_, hphase⟩ => hne hphase⟩

/-! ## Reserved bits and offsets (R38) -/

/-- Of a CTRL read, bit 1 alone can be 1 (R90). -/
theorem ctrlWord_and_reserved (s : State) : s.ctrlWord &&& ~~~0x00000002#32 = 0 := by
  unfold State.ctrlWord
  cases s.alg <;> decide

/-- Of a STATUS read, bits 0, 1 and 7:4 alone can be 1 (R95). -/
theorem statusWord_and_reserved (s : State) : s.statusWord &&& ~~~0x000000F3#32 = 0 := by
  have hall : ∀ (c : BitVec 4) (e : Bool) (p : BitVec 1),
      (c ++ 0#2 ++ BitVec.ofBool e ++ p).setWidth 32 &&& ~~~0x000000F3#32 = 0 := by decide
  exact hall _ _ _

/-- A CTRL write is read in bits 1:0 (R91). -/
theorem exec_wrCtrl_congr {v w : Word} (s : State) (h : v.extractLsb' 0 2 = w.extractLsb' 0 2) :
    exec (.wrCtrl v) s = exec (.wrCtrl w) s := by
  have hbit : ∀ j < 2, v.getLsbD j = w.getLsbD j := fun j hj => by
    simpa [hj, -BitVec.getLsbD_eq_getElem] using congrArg (BitVec.getLsbD · j) h
  rw [exec_wrCtrl, exec_wrCtrl, ctrlResetBit, ctrlResetBit, ctrlAlg, ctrlAlg, hbit 0 (by decide), hbit 1 (by decide)]

/-- A STATUS write is read in bit 1 (R96). -/
theorem exec_wrStatus_congr {v w : Word} (s : State) (h : v.getLsbD 1 = w.getLsbD 1) :
    exec (.wrStatus v) s = exec (.wrStatus w) s := by
  rw [exec_wrStatus, exec_wrStatus, statusClearBit, statusClearBit, h]

theorem performAccess_of_busError {r : Request} {c : Cause} (h : decode r = .busError c) (s : State) :
    performAccess r s = .next { s with
      err := true, errCause := if s.err then s.errCause else c.code, response := some (.busError c) } := by
  rw [performAccess, h]
  show takeBusError c s = _
  rw [takeBusError_eq]
  exact congrArg _ (State.ext_fields (by simp) (by simp) (by simp) (by simp) (by simp) (by simp) (by simp) rfl (by simp))

/-- Settles O27: what a read shows and a write reads stays in the implemented bits, and no row has a reserved offset. -/
theorem reservedBitsAndOffsetsHaveNoEffect : Obligations.ReservedBitsAndOffsetsHaveNoEffect := by
  refine ⟨?_, ?_, fun v w s => exec_wrCtrl_congr s, fun v w s => exec_wrStatus_congr s, ?_⟩
  · intro s t d h hd
    cases (exec_rdCtrl s).symm.trans h
    cases hd
    exact ctrlWord_and_reserved s
  · intro s t d h hd
    cases (exec_rdStatus s).symm.trans h
    cases hd
    exact statusWord_and_reserved s
  · intro wr sz off w s hreg hlow
    have hdec := decode_of_targetAt_eq_none (r := ⟨descriptor wr sz off, w⟩) (adReserved_descriptor ..)
      (by simpa only [adOffset_descriptor] using targetAt_eq_none_iff.mpr ⟨hreg, hlow⟩)
    rw [adOffset_descriptor, adSize_descriptor, accessBytes_eq_two_pow] at hdec
    exact ⟨_, rfl, hdec, performAccess_of_busError hdec s⟩

end Machine
end Sys2Proof
end

section
/-! PROOFS of the family 20_memory: accesses one at a time in arrival order (R51), what a misaligned access, a read and a repeated
write leave (R46, R48), and the bytes of a word in stream order, folded as a word or one by one (R42, R44). -/

namespace Sys2Proof

/-! ## Alignment in the decoder (R46, R66, R122) -/

/-- Every row of R65 is aligned to its size. -/
theorem aligned_of_accepts {row : Row} {ad : Word} (hrow : row ∈ opcodeMap) (h : row.accepts ad = true) :
    (adOffset ad).toNat % accessBytes (adSize ad) = 0 := by
  simp only [opcodeMap, List.mem_cons, List.not_mem_nil, or_false] at hrow
  rcases hrow with rfl | rfl | rfl | rfl | rfl | rfl | rfl | rfl | rfl | rfl
  case inr.inr.inl =>
    have hand : ad &&& 0xFFFFF003#32 = 0x40001000#32 := beq_iff_eq.mp h
    have hsize : adSize ad &&& BitVec.allOnes 2 = 2 :=
      BitVec.extractLsb'_and.symm.trans (congrArg (BitVec.extractLsb' 29 2) hand)
    have hlow : ad.extractLsb' 0 2 &&& BitVec.allOnes 2 = 0 :=
      BitVec.extractLsb'_and.symm.trans (congrArg (BitVec.extractLsb' 0 2) hand)
    rw [BitVec.and_allOnes] at hsize hlow
    rw [hsize, show accessBytes 2 = 4 from rfl]
    simpa [adOffset, Nat.mod_mod_of_dvd] using congrArg BitVec.toNat hlow
  all_goals
    rw [Row.accepts_full_mask.mp h]
    decide

theorem decode_of_misaligned {r : Request} (hrsv : adReserved r.ad = 0)
    (h : (adOffset r.ad).toNat % accessBytes (adSize r.ad) ≠ 0) : decode r = .busError .misaligned := by
  have hnone : opcodeMap.find? (fun row => row.accepts r.ad) = none :=
    List.find?_eq_none.mpr fun row hrow hacc => h (aligned_of_accepts hrow hacc)
  simp [decode, hrsv, hnone, cause, h]

/-! ## The request of an access form (R65) -/

/-- The access form of a descriptor whose first matching row is row `n`. -/
theorem decode_of_findIdx {ad : Word} (n : Nat) (w : Word) (hn : n < opcodeMap.length) (hrsv : adReserved ad = 0)
    (hfirst : opcodeMap.findIdx (fun row => row.accepts ad) = n) :
    decode ⟨ad, w⟩ = .access (opcodeMap[n].make ad w) := by
  have hfind : opcodeMap.find? (fun row => row.accepts ad) = some opcodeMap[n] := by
    rw [List.find?_eq_getElem?_findIdx, hfirst, List.getElem?_eq_getElem hn]
  simp only [decode, hrsv, hfind, ne_eq, not_true_eq_false, if_false]

/-- A descriptor that matches RD.TABLE's row, the third, matches neither of the two before it. -/
theorem findIdx_rdTable {ad : Word} (h : ad &&& 0xFFFFF003#32 = 0x40001000#32) :
    opcodeMap.findIdx (fun row => row.accepts ad) = 2 := by
  have hwrPoly : ad ≠ 0xC0000000#32 := fun heq => absurd (heq ▸ h) (by decide)
  have hrdPoly : ad ≠ 0x40000000#32 := fun heq => absurd (heq ▸ h) (by decide)
  refine (List.findIdx_eq (by decide)).mpr ⟨beq_iff_eq.mpr h, fun j hj => ?_⟩
  match j, hj with
  | 0, _ => exact eq_false_of_ne_true (mt Row.accepts_full_mask.mp hwrPoly)
  | 1, _ => exact eq_false_of_ne_true (mt Row.accepts_full_mask.mp hrdPoly)

theorem tableNumber_descriptor (wr : Bool) (sz k : BitVec 2) (i : Byte) :
    tableNumber (descriptor wr sz (tableOffset k i)) = k := by
  unfold tableNumber descriptor tableOffset
  rw [BitVec.extractLsb'_append_eq_of_add_le (by decide), BitVec.extractLsb'_append_eq_of_le (by decide),
    BitVec.extractLsb'_append_eq_of_le (by decide), BitVec.extractLsb'_append_eq_right]

theorem tableIndex_descriptor (wr : Bool) (sz k : BitVec 2) (i : Byte) :
    tableIndex (descriptor wr sz (tableOffset k i)) = i := by
  unfold tableIndex descriptor tableOffset
  rw [BitVec.extractLsb'_append_eq_of_add_le (by decide), BitVec.extractLsb'_append_eq_of_le (by decide),
    BitVec.extractLsb'_append_eq_right]

/-- The byte of a byte write's request is read from lane 0. -/
theorem byteLane_encode_wr8Data (b : Byte) :
    byteLane (adOffset (encode (.wr8Data b)).ad) (encode (.wr8Data b)).wdata = b := by
  rw [encode, adOffset_descriptor]
  show (b.setWidth 32).extractLsb' 0 8 = b
  rw [BitVec.extractLsb'_setWidth_of_le (by decide), BitVec.extractLsb'_eq_self]

@[simp] theorem decode_encode (i : Instr) : decode (encode i) = .access i := by
  cases i with
  | wrPoly v => exact decode_of_findIdx 0 v (by decide) (adReserved_descriptor ..) (by decide)
  | rdPoly => decide
  | rdTable k j =>
    have hrow := decode_of_findIdx 2 0 (by decide) (adReserved_descriptor false 2 (tableOffset k j))
      (findIdx_rdTable (Laws.Encoded.rdTable k j).2.2)
    exact hrow.trans
      (congrArg₂ (fun k j => Verdict.access (.rdTable k j)) (tableNumber_descriptor ..) (tableIndex_descriptor ..))
  | wrCtrl v => exact decode_of_findIdx 3 v (by decide) (adReserved_descriptor ..) (by decide)
  | rdCtrl => decide
  | rdDigest => decide
  | rdStatus => decide
  | wrStatus v => exact decode_of_findIdx 7 v (by decide) (adReserved_descriptor ..) (by decide)
  | wr8Data b =>
    have hrow := decode_of_findIdx 8 (b.setWidth 32) (by decide) (adReserved_descriptor true 0 Reg.data.offset) (by decide)
    exact hrow.trans (congrArg (fun b => Verdict.access (.wr8Data b)) (byteLane_encode_wr8Data b))
  | wr32Data w => exact decode_of_findIdx 9 w (by decide) (adReserved_descriptor ..) (by decide)

namespace Machine

variable {s t : State} {i : Instr} {r : Request}

/-! ## One access (R66), and what is to arrive after it (R51) -/

theorem performAccess_of_access (h : decode r = .access i) (s : State) : performAccess r s = exec i s := by
  rw [performAccess, h]

theorem performAccess_of_invalid (h : decode r = .invalid) (s : State) :
    performAccess r s = .refused .outsideAperture := by
  rw [performAccess, h]

@[simp] theorem performAccess_encode (i : Instr) (s : State) : performAccess (encode i) s = exec i s :=
  performAccess_of_access (decode_encode i) s

/-- Settles O8: no row matches, MISALIGNED is the first check of R122, and the capture is all a bus error does. -/
theorem misalignedAccessIsRefused : Obligations.MisalignedAccessIsRefused := by
  intro wr sz off w s hoff
  have hdec : decode ⟨descriptor wr sz off, w⟩ = .busError .misaligned :=
    decode_of_misaligned (adReserved_descriptor ..)
      (by rwa [adOffset_descriptor, adSize_descriptor, accessBytes_eq_two_pow])
  exact ⟨hdec, performAccess_of_busError hdec s⟩

theorem exec_exists_next (i : Instr) (s : State) : ∃ t, exec i s = .next t := by
  cases i <;> exact ⟨_, rfl⟩

/-- An access form acts alike whatever is still to arrive. -/
theorem exec_withBus (h : exec i s = .next t) (bus : List BusEvent) :
    exec i { s with bus := bus } = .next { t with bus := bus } := by
  cases i with
  | wrCtrl v =>
    cases h
    rw [exec_wrCtrl]
    cases ctrlResetBit v <;> rfl
  | wrStatus v =>
    cases h
    rw [exec_wrStatus]
    cases statusClearBit v <;> rfl
  | _ =>
    cases h
    rfl

/-- An access acts alike whatever is still to arrive. -/
theorem performAccess_withBus (h : performAccess r s = .next t) (bus : List BusEvent) :
    performAccess r { s with bus := bus } = .next { t with bus := bus } := by
  rcases performAccess_next r h with ⟨i, hdec, hexec⟩ | ⟨c, hdec, -⟩
  · rw [performAccess_of_access hdec, exec_withBus hexec]
  · rw [performAccess_of_busError hdec] at h ⊢
    cases h
    rfl

theorem performAccess_bus (h : performAccess r s = .next t) : t.bus = s.bus := by
  have hstate : t = { t with bus := s.bus } := Host.Outcome.next.inj (h.symm.trans (performAccess_withBus h s.bus))
  rw [hstate]

/-- An access is performed or taken as a bus error unless its descriptor is INVALID. -/
theorem performAccess_next_or_invalid (r : Request) (s : State) :
    (∃ t, performAccess r s = .next t) ∨ decode r = .invalid := by
  cases hdec : decode r with
  | access i => exact .inl (performAccess_of_access hdec s ▸ exec_exists_next i s)
  | busError c => exact .inl ⟨_, performAccess_of_busError hdec s⟩
  | invalid => exact .inr rfl

/-! ## The step (R10, R51, R133, R141) -/

theorem step_of_bus_nil (h : s.bus = []) : step s = .next s := by
  rw [step, h]

theorem step_of_bus_cons {e : BusEvent} {rest : List BusEvent} (h : s.bus = e :: rest) :
    step s = performEvent e { s with bus := rest } := by
  rw [step, h]

theorem decode_requestOfBits {nbits w : Nat} (h : decodeTableWord nbits w = some i) :
    decode (requestOfBits nbits w) = .access i := by
  unfold decodeTableWord at h
  split at h
  next j hdec =>
    cases h
    exact hdec
  next => cases h
  next => cases h

/-- Settles O11: a step is `performEvent` of the first arrival. -/
theorem stepHandlesTheFirstArrival : Obligations.StepHandlesTheFirstArrival := by
  refine ⟨fun s => step_of_bus_nil, fun s r rest hbus => ?_, fun s abandoned rest => step_of_bus_cons,
    fun s nbits w i hword => performAccess_of_access (decode_requestOfBits hword) s⟩
  have hstep : step s = performAccess r { s with bus := rest } := step_of_bus_cons hbus
  rw [hstep]
  refine ⟨fun i hdec => performAccess_of_access hdec _, fun c hdec => ?_, fun hdec => performAccess_of_invalid hdec _⟩
  rw [performAccess, hdec]

/-! ## A sequence of accesses (R51) -/

theorem performAll_cons_of_next {rs : List Request} (h : performAccess r s = .next t) :
    performAll (r :: rs) s = performAll rs t := by
  rw [performAll, h]

theorem performAll_encode_cons {rs : List Request} (h : exec i s = .next t) :
    performAll (encode i :: rs) s = performAll rs t :=
  performAll_cons_of_next ((performAccess_encode i s).trans h)

theorem performAll_cons_of_invalid {rs : List Request} (h : decode r = .invalid) (s : State) :
    performAll (r :: rs) s = .refused .outsideAperture := by
  rw [performAll, performAccess_of_invalid h]

theorem run_succ_of_next {M : Host.Core} {n : Nat} {x y : M.State} (h : M.step x = .next y) :
    M.run (n + 1) x = M.run n y := by
  rw [Host.Core.run, h]

theorem run_succ_of_refused {M : Host.Core} {n : Nat} {x : M.State} {q : M.Refusal} (h : M.step x = .refused q) :
    M.run (n + 1) x = .refused q := by
  rw [Host.Core.run, h]

/-- Settles O14, by induction on the requests: the first one acts alike with the others to arrive or without them. -/
theorem stepsPerformAccessesInArrivalOrder : Obligations.StepsPerformAccessesInArrivalOrder := by
  intro rs
  induction rs with
  | nil =>
    rintro s rest rfl
    rfl
  | cons r rs ih =>
    intro s rest hbus
    have hstep : step s = performAccess r { s with bus := rs.map BusEvent.access ++ rest } := step_of_bus_cons hbus
    rcases performAccess_next_or_invalid r { s with bus := rest } with ⟨t, hnext⟩ | hinvalid
    · have hfirst : step s = .next { t with bus := rs.map BusEvent.access ++ rest } :=
        hstep.trans (performAccess_withBus hnext _)
      have hrest : rest = t.bus := (performAccess_bus hnext).symm
      rw [performAll_cons_of_next hnext, List.length_cons, run_succ_of_next (M := core) hfirst, ih _ rest rfl, hrest]
    · have hfirst : step s = .refused .outsideAperture := hstep.trans (performAccess_of_invalid hinvalid _)
      exact (run_succ_of_refused (M := core) hfirst).trans (performAll_cons_of_invalid hinvalid _).symm

/-- Settles O21: the write leaves the built tables, and the read answers the entry it finds there. -/
theorem tableReadsAfterWrPolySeeTheNewTables : Obligations.TableReadsAfterWrPolySeeTheNewTables := fun v k i s =>
  ⟨_, (performAll_encode_cons (exec_wrPoly v s)).trans (performAll_encode_cons (exec_rdTable k i _)), rfl⟩

/-! ## Reads, repeated writes and bus errors (R48) -/

/-- A read answers its data and changes nothing else, and its data are no function of the answer held. -/
theorem exec_of_isRead (h : i.isRead = true) (s : State) :
    ∃ d, ∀ answer, exec i { s with response := answer } = .next (s.respond (.data d)) := by
  cases i with
  | rdPoly => exact ⟨s.poly, fun _ => rfl⟩
  | rdTable k j => exact ⟨s.tbl.entry k j, fun _ => rfl⟩
  | rdCtrl => exact ⟨s.ctrlWord, fun _ => rfl⟩
  | rdDigest => exact ⟨~~~s.crc, fun _ => rfl⟩
  | rdStatus => exact ⟨s.statusWord, fun _ => rfl⟩
  | _ => exact nomatch h

theorem exec_wrPoly_idempotent (v : Word) (h : exec (.wrPoly v) s = .next t) : exec (.wrPoly v) t = .next t := by
  cases h
  rfl

theorem exec_wrCtrl_idempotent (v : Word) (h : exec (.wrCtrl v) s = .next t) : exec (.wrCtrl v) t = .next t := by
  cases h
  rw [exec_wrCtrl]
  cases ctrlResetBit v <;> rfl

theorem exec_wrStatus_idempotent (v : Word) (h : exec (.wrStatus v) s = .next t) : exec (.wrStatus v) t = .next t := by
  cases h
  rw [exec_wrStatus]
  cases statusClearBit v <;> rfl

/-- From reset, one zero byte and then another leave different CRCs. -/
theorem fold8_reset_ne_twice :
    fold8 (buildSlicedTable Config.resetPoly) 0xFFFFFFFF#32 0 ≠
      fold8 (buildSlicedTable Config.resetPoly) (fold8 (buildSlicedTable Config.resetPoly) 0xFFFFFFFF#32 0) 0 := by
  simp only [fold8_eq_tableStep_iterate]
  decide

/-- Settles O40: reads and bus errors do not write the engine, and the control writes set what they leave alone. -/
theorem readsHaveNoSideEffects : Obligations.ReadsHaveNoSideEffects := by
  refine ⟨fun i s hread => ?_,
    fun v s t => ⟨exec_wrPoly_idempotent v, exec_wrCtrl_idempotent v, exec_wrStatus_idempotent v⟩,
    ⟨0, _, _, exec_wr8Data 0 _, exec_wr8Data 0 _, fold8_reset_ne_twice⟩, fun r c s hdec => ?_⟩
  · obtain ⟨d, hexec⟩ := exec_of_isRead hread s
    exact ⟨s.respond (.data d), hexec s.response, rfl, rfl, rfl, rfl, rfl, rfl, rfl, rfl, fun _ => rfl,
      hexec (some (.data d))⟩
  · exact ⟨_, performAccess_of_busError hdec s, rfl, rfl, rfl, rfl, rfl, rfl, fun _ => rfl⟩

/-! ## The bytes of a word (R42) -/

theorem packWord_eq_append (b0 b1 b2 b3 : Byte) : packWord b0 b1 b2 b3 = b3 ++ b2 ++ b1 ++ b0 := by
  have hor : (b3 ++ b2 ++ b1 ++ b0).setWidth 32 =
      b3.setWidth 32 <<< 24 ||| b2.setWidth 32 <<< 16 ||| b1.setWidth 32 <<< 8 ||| b0.setWidth 32 :=
    BitVec.setWidth_append_append_append_eq_shiftLeft_setWidth_or
  have hreverse : ∀ x0 x1 x2 x3 : Word, x0 ||| x1 ||| x2 ||| x3 = x3 ||| x2 ||| x1 ||| x0 := by
    intros
    ac_rfl
  rw [BitVec.setWidth_eq] at hor
  rw [hor, packWord, hreverse]

theorem wordBytes_append (b0 b1 b2 b3 : Byte) : wordBytes (b3 ++ b2 ++ b1 ++ b0) = [b0, b1, b2, b3] := by
  simp (disch := decide) only [wordBytes, wordByte, Nat.reduceMul, Nat.reduceSub, BitVec.extractLsb'_append_eq_right,
    BitVec.extractLsb'_append_eq_of_le, BitVec.extractLsb'_eq_self]

/-- Settles O32: a packed word is its bytes appended, the last one highest. -/
theorem wordsArePackedLittleEndian : Obligations.WordsArePackedLittleEndian :=
  ⟨fun b0 b1 b2 b3 => (congrArg wordBytes (packWord_eq_append ..)).trans (wordBytes_append b0 b1 b2 b3),
    fun w => (packWord_eq_append ..).trans (wordByte_append w)⟩

/-! ## The word folds (R102, R103, R106) as iterations of the table builder's loop -/

theorem shiftRight_word (w : Word) : w >>> 32 = 0#32 := BitVec.ushiftRight_eq_zero (Nat.le_refl 32)

theorem wordByte_eq_shiftRight (w : Word) (j : Nat) : wordByte w j = (w >>> (8 * j)).setWidth 8 :=
  BitVec.setWidth_ushiftRight_eq_extractLsb.symm

/-- Eight iterations of R80 on the register with a word added: the low byte is folded in, the others move right. -/
theorem tableStep_iterate_eight_xor (p c w : Word) :
    (tableStep p)^[8] (c ^^^ w) = fold8 (buildSlicedTable p) c (w.setWidth 8) ^^^ (w >>> 8) := by
  have hlow : ∀ j < 8, (w >>> 8 <<< 8).getLsbD j = false := fun j hj => by simp [hj]
  calc (tableStep p)^[8] (c ^^^ w)
      = (tableStep p)^[8] (c ^^^ (w.setWidth 8).setWidth 32 ^^^ (w >>> 8 <<< 8)) := by
        rw [BitVec.xor_assoc, lowByte_xor_highBits]
    _ = (tableStep p)^[8] (c ^^^ (w.setWidth 8).setWidth 32) ^^^ (w >>> 8 <<< 8 >>> 8) :=
        tableStep_iterate_xor_of_low_zero p _ _ 8 hlow
    _ = fold8 (buildSlicedTable p) c (w.setWidth 8) ^^^ (w >>> 8) := by
        rw [← fold8_eq_tableStep_iterate, highBits_shiftRight_eight]

/-- The simple word fold is 32 iterations of R80 on the register with the word added. -/
theorem fold32Simple_eq_iterate (p c w : Word) :
    fold32Simple (buildSlicedTable p) c w = (tableStep p)^[32] (c ^^^ w) := by
  show _ = (tableStep p)^[8] ((tableStep p)^[8] ((tableStep p)^[8] ((tableStep p)^[8] (c ^^^ w))))
  simp only [tableStep_iterate_eight_xor, ← BitVec.shiftRight_add, Nat.reduceAdd, shiftRight_word, BitVec.xor_zero]
  simp only [fold32Simple, wordByte_eq_shiftRight]
  rfl

theorem tableStep_xor_tableStep (p x y : Word) : tableStep p (x ^^^ y) = tableStep p x ^^^ tableStep p y := by
  have hshift : (x ^^^ y) >>> 1 = (x >>> 1) ^^^ (y >>> 1) := BitVec.ushiftRight_xor_distrib x y 1
  unfold tableStep
  rw [BitVec.getLsbD_xor, hshift]
  cases x.getLsbD 0 <;> cases y.getLsbD 0
  · rfl
  · exact BitVec.xor_assoc ..
  · show _ = (x >>> 1 ^^^ p) ^^^ (y >>> 1)
    ac_rfl
  · show _ = (x >>> 1 ^^^ p) ^^^ (y >>> 1 ^^^ p)
    rw [BitVec.xor_comm (y >>> 1), ← BitVec.xor_assoc, BitVec.xor_assoc _ p p, BitVec.xor_self, BitVec.xor_zero]
    rfl

theorem tableStep_iterate_xor_iterate (p x y : Word) (n : Nat) :
    (tableStep p)^[n] (x ^^^ y) = (tableStep p)^[n] x ^^^ (tableStep p)^[n] y := by
  induction n with
  | zero => rfl
  | succ n ih => simp only [Function.iterate_succ_apply', ih, tableStep_xor_tableStep]

/-- An entry of Tk is eight iterations of R80 on the entry of T(k-1) (R81). -/
theorem nextTable_entry_eq_iterate (p : Word) (t : Table) (i : Byte) :
    (nextTable (buildTable p) t).entry i = (tableStep p)^[8] (t.entry i) := by
  rw [nextTable_entry, buildTable_entry, tableStep_iterate_eight]

/-- An entry of Tk is `8 * k` iterations of R80 on the entry of T0. -/
theorem buildSlicedTable_entry (p : Word) (k : BitVec 2) (i : Byte) :
    (buildSlicedTable p).entry k i = (tableStep p)^[8 * k.toNat] (tableEntry p i) := by
  rcases (by decide : ∀ k : BitVec 2, k = 0#2 ∨ k = 1#2 ∨ k = 2#2 ∨ k = 3#2) k with rfl | rfl | rfl | rfl
  all_goals
    simp only [Tables.entry_zero, Tables.entry_one, Tables.entry_two, Tables.entry_three, buildSlicedTable_t0,
      buildSlicedTable_t1, buildSlicedTable_t2, buildSlicedTable_t3, nextTable_entry_eq_iterate, buildTable_entry,
      ← Function.iterate_add_apply]
    rfl

/-- `8 * (k + 1)` iterations of R80 on what is left of a word: byte `j` selects the entry of Tk, the others move right. -/
theorem tableStep_iterate_wordByte (p x : Word) (k : BitVec 2) (j : Nat) :
    (tableStep p)^[8 * k.toNat + 8] (x >>> (8 * j)) =
      (tableStep p)^[8 * k.toNat] (x >>> (8 * j + 8)) ^^^ (buildSlicedTable p).entry k (wordByte x j) := by
  rw [Function.iterate_add_apply, tableStep_iterate_eight, tableStep_iterate_xor_iterate, buildSlicedTable_entry,
    wordByte_eq_shiftRight, BitVec.shiftRight_add]

/-- The sliced word fold is the same 32 iterations, each table taking one byte. -/
theorem fold32Sliced_eq_iterate (p c w : Word) :
    fold32Sliced (buildSlicedTable p) c w = (tableStep p)^[32] (c ^^^ w) := by
  rw [fold32Sliced_eq]
  generalize c ^^^ w = x
  have h3 : (tableStep p)^[32] x = (tableStep p)^[24] (x >>> 8) ^^^ _ := tableStep_iterate_wordByte p x 3 0
  have h2 : (tableStep p)^[24] (x >>> 8) = (tableStep p)^[16] (x >>> 16) ^^^ _ := tableStep_iterate_wordByte p x 2 1
  have h1 : (tableStep p)^[16] (x >>> 16) = (tableStep p)^[8] (x >>> 24) ^^^ _ := tableStep_iterate_wordByte p x 1 2
  have h0 : (tableStep p)^[8] (x >>> 24) = x >>> 32 ^^^ _ := tableStep_iterate_wordByte p x 0 3
  rw [h3, h2, h1, h0, shiftRight_word, BitVec.zero_xor]
  ac_rfl

theorem fold32_eq_fold32Simple (a : Alg) (p c w : Word) :
    fold32 a (buildSlicedTable p) c w = fold32Simple (buildSlicedTable p) c w := by
  cases a with
  | simple => rfl
  | sliced => exact (fold32Sliced_eq_iterate p c w).trans (fold32Simple_eq_iterate p c w).symm

/-- Settles O35: under either ALG the word fold is the four byte folds, and a byte write keeps the tables. -/
theorem wordWriteEqualsFourByteWrites : Obligations.WordWriteEqualsFourByteWrites := by
  intro w s htbl
  refine ⟨_, performAll_encode_cons (exec_wr32Data w s), ?_⟩
  rw [htbl, fold32_eq_fold32Simple, ← htbl]
  simp only [performAll_encode_cons (exec_wr8Data _ _)]
  rfl

end Machine
end Sys2Proof
end

section
/-! PROOFS of the family 30_encoding: the fields of a descriptor both ways (R60), the opcode map and the decoder (R62, R63, R65 to
R67), and what program lines and pseudo-instructions assemble to (R69, R70). -/

namespace Sys2Proof

/-! ## A descriptor from its fields (R60) -/

theorem ofBool_adWrite (ad : Word) : BitVec.ofBool (adWrite ad) = ad.extractLsb' 31 1 := by
  ext i hi
  obtain rfl : i = 0 := by omega
  simp [adWrite]

theorem descriptor_fields {ad : Word} (hrsv : adReserved ad = 0) :
    descriptor (adWrite ad) (adSize ad) (adOffset ad) = ad := by
  show BitVec.ofBool (adWrite ad) ++ adSize ad ++ (0 : BitVec 16) ++ adOffset ad = ad
  rw [ofBool_adWrite, ← hrsv]
  unfold adSize adReserved adOffset
  rw [BitVec.extractLsb'_append_extractLsb'_eq_extractLsb' (start₂ := 31) (start₁ := 29) rfl,
    BitVec.extractLsb'_append_extractLsb'_eq_extractLsb' (start₂ := 29) (start₁ := 13) rfl]
  exact BitVec.extractLsb'_append_extractLsb'

/-- Settles O4: a descriptor is its four fields appended. -/
theorem descriptorFieldsAreRecovered : Obligations.DescriptorFieldsAreRecovered :=
  ⟨fun _ _ _ => ⟨adWrite_descriptor .., adSize_descriptor .., adReserved_descriptor .., adOffset_descriptor ..⟩,
    fun _ => descriptor_fields⟩

/-- A built descriptor has none of R60's reserved bits. -/
theorem descriptor_wf (wr : Bool) (sz : BitVec 2) (off : BitVec 13) (w : Word) :
    Request.wf ⟨descriptor wr sz off, w⟩ = true := by
  have hmask : reservedMask = 0#1 ++ 0#2 ++ BitVec.allOnes 16 ++ 0#13 := by decide
  have hand : descriptor wr sz off &&& reservedMask = 0#1 ++ 0#2 ++ 0#16 ++ 0#13 := by
    rw [hmask, descriptor, BitVec.and_append, BitVec.and_append, BitVec.and_append, BitVec.and_allOnes,
      BitVec.and_zero, BitVec.and_zero, BitVec.and_zero]
  exact beq_iff_eq.mpr hand

/-! ## The descriptors of RD.TABLE's row (R64, R65) -/

/-- A descriptor of RD.TABLE's row is the row's bits with the table number and the index between them. -/
theorem eq_append_of_rdTable_row {ad : Word} (h : ad &&& 0xFFFFF003#32 = 0x40001000#32) :
    ad = 0x40001#20 ++ tableNumber ad ++ tableIndex ad ++ 0#2 := by
  have hhigh : ad.extractLsb' 12 20 &&& BitVec.allOnes 20 = 0x40001#20 :=
    BitVec.extractLsb'_and.symm.trans (congrArg (BitVec.extractLsb' 12 20) h)
  have hlow : ad.extractLsb' 0 2 &&& BitVec.allOnes 2 = 0#2 :=
    BitVec.extractLsb'_and.symm.trans (congrArg (BitVec.extractLsb' 0 2) h)
  rw [BitVec.and_allOnes] at hhigh hlow
  rw [← hhigh, ← hlow]
  unfold tableNumber tableIndex
  rw [BitVec.extractLsb'_append_extractLsb'_eq_extractLsb' (start₂ := 12) (start₁ := 10) rfl,
    BitVec.extractLsb'_append_extractLsb'_eq_extractLsb' (start₂ := 10) (start₁ := 2) rfl]
  exact (BitVec.extractLsb'_append_extractLsb' (w := 30) (len := 2)).symm

theorem encode_rdTable_ad (k : BitVec 2) (i : Byte) :
    (encode (.rdTable k i)).ad = 0x40001#20 ++ k ++ i ++ 0#2 := by
  have happend := eq_append_of_rdTable_row (Laws.Encoded.rdTable k i).2.2
  rwa [encode, tableNumber_descriptor, tableIndex_descriptor] at happend

/-! ## The opcode map (R65) -/

/-- Two rows that accept one descriptor agree on the bits both of their masks have. -/
theorem Row.pattern_and_mask_eq {a b : Row} {ad : Word} (ha : a.accepts ad = true) (hb : b.accepts ad = true) :
    a.pattern &&& b.mask = b.pattern &&& a.mask := by
  rw [← beq_iff_eq.mp ha, ← beq_iff_eq.mp hb]
  ac_rfl

/-- Any two rows differ on the bits both of their masks have. -/
theorem opcodeMap_pairwise : opcodeMap.Pairwise fun a b => a.pattern &&& b.mask ≠ b.pattern &&& a.mask := by decide

/-- Settles O5: two rows that accept one descriptor agree where both masks are set, and no two rows of the map do. -/
theorem noTwoOpcodeRowsMatch : Obligations.NoTwoOpcodeRowsMatch := by
  intro ad
  have hpairwise := opcodeMap_pairwise.filter fun row => row.accepts ad
  have haccepts : ∀ row ∈ opcodeMap.filter fun row => row.accepts ad, row.accepts ad = true :=
    fun row hrow => (List.mem_filter.mp hrow).2
  generalize opcodeMap.filter (fun row => row.accepts ad) = rows at hpairwise haccepts ⊢
  match rows with
  | [] => exact Nat.zero_le 1
  | [_] => exact Nat.le_refl 1
  | a :: b :: rest =>
    have hne := (List.pairwise_cons.mp hpairwise).1 b List.mem_cons_self
    have heq := Row.pattern_and_mask_eq (haccepts a List.mem_cons_self)
      (haccepts b (List.mem_cons_of_mem a List.mem_cons_self))
    exact absurd heq hne

theorem opcodeMap_find?_of_accepts {row : Row} {ad : Word} (hrow : row ∈ opcodeMap) (h : row.accepts ad = true) :
    opcodeMap.find? (fun row => row.accepts ad) = some row := by
  have hmem : row ∈ opcodeMap.filter fun row => row.accepts ad := List.mem_filter.mpr ⟨hrow, h⟩
  have hlength : (opcodeMap.filter fun row => row.accepts ad).length ≤ 1 := noTwoOpcodeRowsMatch ad
  rw [← List.head?_filter]
  generalize opcodeMap.filter (fun row => row.accepts ad) = rows at hmem hlength ⊢
  match rows with
  | [a] => rw [List.mem_singleton.mp hmem, List.head?_cons]
  | a :: b :: rest => simp at hlength

/-! ## The decoder's answer of each kind (R62, R66) -/

theorem decode_of_reserved {r : Request} (h : adReserved r.ad ≠ 0) : decode r = .invalid := by
  rw [decode, if_pos h]

theorem decode_of_accepts {r : Request} {row : Row} (hrsv : adReserved r.ad = 0) (hrow : row ∈ opcodeMap)
    (h : row.accepts r.ad = true) : decode r = .access (row.make r.ad r.wdata) := by
  rw [decode, if_neg (not_not_intro hrsv), opcodeMap_find?_of_accepts hrow h]

/-- An access form is made by a row that accepts the descriptor. -/
theorem accepts_of_decode {r : Request} {i : Instr} (h : decode r = .access i) :
    ∃ row ∈ opcodeMap, row.accepts r.ad = true ∧ i = row.make r.ad r.wdata := by
  unfold decode at h
  split at h
  next => cases h
  next =>
    split at h
    next row hfind =>
      have haccepts : row.accepts r.ad = true := List.find?_some (p := fun row : Row => row.accepts r.ad) hfind
      exact ⟨row, List.mem_of_find?_eq_some hfind, haccepts, (Verdict.access.inj h).symm⟩
    next => split at h <;> cases h

/-- WR8.DATA's row takes WDATA[7:0] (R63). -/
theorem byteLane_wr8Data_row (w : Word) : byteLane (adOffset 0x80000008#32) w = w.setWidth 8 := by
  rw [show adOffset 0x80000008#32 = 0x008#13 by decide]
  exact (BitVec.setWidth_eq_extractLsb' (by decide)).symm

/-- Settles O3, row by row: nine rows fix the whole descriptor, and RD.TABLE's fixes all but its operands. -/
theorem decodedFormDeterminesItsRequest : Obligations.DecodedFormDeterminesItsRequest := by
  intro r i hdec
  obtain ⟨ad, w⟩ := r
  obtain ⟨row, hrow, hacc, rfl⟩ := accepts_of_decode hdec
  simp only [opcodeMap, List.mem_cons, List.not_mem_nil, or_false] at hrow
  rcases hrow with rfl | rfl | rfl | rfl | rfl | rfl | rfl | rfl | rfl | rfl
  case inr.inr.inl =>
    exact ⟨(encode_rdTable_ad ..).trans (eq_append_of_rdTable_row (beq_iff_eq.mp hacc)).symm, trivial⟩
  case inr.inr.inr.inr.inr.inr.inr.inr.inl =>
    obtain rfl := Row.accepts_full_mask.mp hacc
    exact ⟨rfl, byteLane_wr8Data_row w⟩
  all_goals
    obtain rfl := Row.accepts_full_mask.mp hacc
    exact ⟨rfl, by trivial⟩

/-! ## An access that R122 finds no cause for is an access form (R65, R122) -/

/-- What every check of R122 has passed. -/
theorem cause_eq_none {wr : Bool} {n : Nat} {off : BitVec 13} (h : cause wr n off = none) :
    off.toNat % n = 0 ∧ ∃ t, targetAt off = some t ∧ t.acceptsBytes n = true ∧
      (wr && t.isReadOnly) = false ∧ (!wr && t.isWriteOnly) = false := by
  unfold cause at h
  split at h
  next => cases h
  next haligned =>
    split at h
    next => cases h
    next t htarget =>
      refine ⟨not_not.mp haligned, t, htarget, ?_⟩
      simpa [ite_eq_iff] using h

theorem targetAt_eq_some {off : BitVec 13} {t : Target} (h : targetAt off = some t) :
    (∃ r : Reg, t = .reg r ∧ off = r.offset) ∨ t = .table ∧ off.getLsbD 12 = true := by
  unfold targetAt at h
  repeat' split at h
  · exact .inl ⟨.poly, (Option.some.inj h).symm, ‹_›⟩
  · exact .inl ⟨.ctrl, (Option.some.inj h).symm, ‹_›⟩
  · exact .inl ⟨.data, (Option.some.inj h).symm, ‹_›⟩
  · exact .inl ⟨.digest, (Option.some.inj h).symm, ‹_›⟩
  · exact .inl ⟨.status, (Option.some.inj h).symm, ‹_›⟩
  · exact .inr ⟨(Option.some.inj h).symm, ‹_›⟩
  · cases h

/-- The size codes that a target takes: 32 bits, and 8 bits at DATA (R47). -/
theorem size_of_acceptsBytes {t : Target} {sz : BitVec 2} (h : t.acceptsBytes (accessBytes sz) = true) :
    sz = 2 ∨ t = .reg .data ∧ sz = 0 := by
  rcases (by decide : ∀ sz : BitVec 2, sz = 0 ∨ sz = 1 ∨ sz = 2 ∨ sz = 3) sz with rfl | rfl | rfl | rfl
  · exact .inr ⟨by simpa [Target.acceptsBytes, accessBytes] using h, rfl⟩
  · simp [Target.acceptsBytes, accessBytes] at h
  · exact .inl rfl
  · simp [Target.acceptsBytes, accessBytes] at h

/-- An aligned offset of the TABLE window is that of an entry (R37, R64). -/
theorem eq_tableOffset {off : BitVec 13} (hwindow : off.getLsbD 12 = true) (haligned : off.toNat % 4 = 0) :
    off = tableOffset (off.extractLsb' 10 2) (off.extractLsb' 2 8) := by
  have htop : off.extractLsb' 12 1 = 1#1 := by
    ext i hi
    obtain rfl : i = 0 := by omega
    simpa using hwindow
  have hlow : off.extractLsb' 0 2 = 0#2 := BitVec.eq_of_toNat_eq (by simpa using haligned)
  rw [tableOffset, ← htop, ← hlow,
    BitVec.extractLsb'_append_extractLsb'_eq_extractLsb' (start₂ := 12) (start₁ := 10) rfl,
    BitVec.extractLsb'_append_extractLsb'_eq_extractLsb' (start₂ := 10) (start₁ := 2) rfl]
  exact (BitVec.extractLsb'_append_extractLsb' (w := 11) (len := 2)).symm

theorem exists_encode_of_cause_eq_none {wr : Bool} {sz : BitVec 2} {off : BitVec 13}
    (h : cause wr (accessBytes sz) off = none) : ∃ i, (encode i).ad = descriptor wr sz off := by
  obtain ⟨haligned, t, htarget, hbytes, hreadOnly, hwriteOnly⟩ := cause_eq_none h
  rcases targetAt_eq_some htarget with ⟨r, rfl, rfl⟩ | ⟨rfl, hwindow⟩
  · rcases size_of_acceptsBytes hbytes with rfl | ⟨hdata, rfl⟩
    · match r, wr with
      | .poly, true => exact ⟨.wrPoly 0, rfl⟩
      | .poly, false => exact ⟨.rdPoly, rfl⟩
      | .ctrl, true => exact ⟨.wrCtrl 0, rfl⟩
      | .ctrl, false => exact ⟨.rdCtrl, rfl⟩
      | .data, true => exact ⟨.wr32Data 0, rfl⟩
      | .data, false => exact absurd hwriteOnly (by decide)
      | .digest, true => exact absurd hreadOnly (by decide)
      | .digest, false => exact ⟨.rdDigest, rfl⟩
      | .status, true => exact ⟨.wrStatus 0, rfl⟩
      | .status, false => exact ⟨.rdStatus, rfl⟩
    · cases hdata
      cases wr with
      | true => exact ⟨.wr8Data 0, rfl⟩
      | false => exact absurd hwriteOnly (by decide)
  · rcases size_of_acceptsBytes hbytes with rfl | ⟨hdata, -⟩
    · cases wr with
      | true => exact absurd hreadOnly (by decide)
      | false =>
        rw [eq_tableOffset hwindow haligned]
        exact ⟨.rdTable _ _, rfl⟩
    · cases hdata

/-- A descriptor with RSV = 0 that no row accepts has a cause (R122). -/
theorem exists_cause_of_no_row {ad : Word} (hrsv : adReserved ad = 0)
    (hnone : ∀ row ∈ opcodeMap, row.accepts ad = false) :
    ∃ c, cause (adWrite ad) (accessBytes (adSize ad)) (adOffset ad) = some c := by
  refine Option.ne_none_iff_exists'.mp fun hcause => ?_
  obtain ⟨i, hi⟩ := exists_encode_of_cause_eq_none hcause
  obtain ⟨row, hrow, hacc, -⟩ := accepts_of_decode (decode_encode i)
  rw [hi, descriptor_fields hrsv, hnone row hrow] at hacc
  cases hacc

theorem decode_of_no_row {r : Request} {c : Cause} (hrsv : adReserved r.ad = 0)
    (hnone : ∀ row ∈ opcodeMap, row.accepts r.ad = false)
    (hcause : cause (adWrite r.ad) (accessBytes (adSize r.ad)) (adOffset r.ad) = some c) :
    decode r = .busError c := by
  have hfind : opcodeMap.find? (fun row => row.accepts r.ad) = none :=
    List.find?_eq_none.mpr fun row hrow => ne_true_of_eq_false (hnone row hrow)
  rw [decode, if_neg (not_not_intro hrsv), hfind]
  simp only [hcause]

/-- With RSV = 0 the answer is a row's access form or a bus error. -/
theorem decode_ne_invalid {r : Request} (hrsv : adReserved r.ad = 0) : decode r ≠ .invalid := by
  by_cases hrow : ∃ row ∈ opcodeMap, row.accepts r.ad = true
  · obtain ⟨row, hrow, hacc⟩ := hrow
    rw [decode_of_accepts hrsv hrow hacc]
    nofun
  · have hnone : ∀ row ∈ opcodeMap, row.accepts r.ad = false := by simpa using hrow
    obtain ⟨c, hcause⟩ := exists_cause_of_no_row hrsv hnone
    rw [decode_of_no_row hrsv hnone hcause]
    nofun

/-- Settles O6: RSV is looked at first, then the one row that accepts, and where none does a check of R122 fails. -/
theorem decoderAnswersInvalidOrRowOrCause : Obligations.DecoderAnswersInvalidOrRowOrCause := by
  intro r
  refine ⟨⟨fun hinvalid hrsv => decode_ne_invalid hrsv hinvalid, decode_of_reserved⟩,
    fun hrsv row => decode_of_accepts hrsv, fun hrsv hnone => ?_⟩
  obtain ⟨c, hcause⟩ := exists_cause_of_no_row hrsv hnone
  exact ⟨c, hcause, decode_of_no_row hrsv hnone hcause⟩

/-- Settles O2: each form's request is accepted by the form's row, which reads the operands back. -/
theorem decodeOfEncodeIsIdentity : Obligations.DecodeOfEncodeIsIdentity := decode_encode

/-- Settles O9: the decoder looks at RSV before the opcode map. -/
theorem reservedBitsSetIsNoAccess : Obligations.ReservedBitsSetIsNoAccess := fun _ s hrsv =>
  ⟨decode_of_reserved hrsv, Machine.performAccess_of_invalid (decode_of_reserved hrsv) s⟩

/-- Settles O10: each descriptor's first matching row is its own, which takes the operand from WDATA. -/
theorem writeOperandsComeFromTheirLanes : Obligations.WriteOperandsComeFromTheirLanes := fun w =>
  ⟨decode_of_findIdx 8 w (by decide) (by decide) (by decide), decode_encode (.wr32Data w), decode_encode (.wrPoly w),
    decode_encode (.wrCtrl w), decode_encode (.wrStatus w)⟩

/-- Settles O1: the first twelve are requests of access forms; the others meet the condition of their answer. -/
theorem decoderReadsTheSpecsDescriptors : Obligations.DecoderReadsTheSpecsDescriptors := by
  refine ⟨decode_encode (.wrPoly _), decode_encode .rdPoly, decode_encode (.rdTable 0 1),
    decode_encode (.rdTable 2 0x80), decode_encode (.rdTable 3 0xFF), decode_encode (.wrCtrl _), decode_encode .rdCtrl,
    decode_encode .rdDigest, decode_encode .rdStatus, decode_encode (.wrStatus _), decode_encode (.wr8Data 0x61),
    decode_encode (.wr32Data _), ?misaligned, ?unmapped, ?badWidth, ?readOnly, ?writeOnly, ?invalid⟩
  case misaligned => exact decode_of_misaligned (by decide) (by decide)
  case unmapped => exact decode_of_targetAt_eq_none (by decide) (by decide)
  case invalid => exact decode_of_reserved (by decide)
  all_goals exact decode_of_no_row (by decide) (by decide) (by decide)

namespace Machine

/-! ## Program lines (R69) -/

theorem writeLine_descriptor (r : Reg) : 0xC0000000#32 ||| r.offset.setWidth 32 = descriptor true 2 r.offset := by
  cases r <;> decide

theorem readLine_descriptor (r : Reg) : 0x40000000#32 ||| r.offset.setWidth 32 = descriptor false 2 r.offset := by
  cases r <;> decide

theorem tableLine_descriptor (k : BitVec 2) (i : Byte) :
    0x40001000#32 ||| k.setWidth 32 <<< 10 ||| i.setWidth 32 <<< 2 = descriptor false 2 (tableOffset k i) := by
  have hor : (0x40001#20 ++ k ++ i ++ 0#2).setWidth 32 =
      (0x40001#20).setWidth 32 <<< 12 ||| k.setWidth 32 <<< 10 ||| i.setWidth 32 <<< 2 ||| (0#2).setWidth 32 :=
    BitVec.setWidth_append_append_append_eq_shiftLeft_setWidth_or
  rw [BitVec.setWidth_eq, ← encode_rdTable_ad] at hor
  exact (hor.trans (BitVec.or_zero ..)).symm

theorem assemble_wr32 (r : Reg) (v : Word) : assemble (.wr32 r v) = some ⟨descriptor true 2 r.offset, v⟩ := by
  rw [assemble, writeLine_descriptor]

theorem assemble_rd32 (r : Reg) : assemble (.rd32 r) = some ⟨descriptor false 2 r.offset, 0⟩ := by
  rw [assemble, readLine_descriptor]

theorem assemble_wr8Data (b : Byte) : assemble (.wr8Data b) = some (encode (.wr8Data b)) := rfl

theorem assemble_rdTable (k : BitVec 2) (i : Byte) : assemble (.rdTable k i) = some (encode (.rdTable k i)) := by
  rw [assemble, tableLine_descriptor, encode]

/-- R69's widths are those that have a size code, and the code's size is the width (R61). -/
theorem sizeCode_of_mem {bits : Nat} (h : bits ∈ [8, 16, 32, 64]) :
    ∃ sz, sizeCode bits = some sz ∧ 8 * accessBytes sz = bits := by
  simp only [List.mem_cons, List.not_mem_nil, or_false] at h
  rcases h with rfl | rfl | rfl | rfl
  · exact ⟨0, rfl, rfl⟩
  · exact ⟨1, rfl, rfl⟩
  · exact ⟨2, rfl, rfl⟩
  · exact ⟨3, rfl, rfl⟩

theorem mem_of_sizeCode {bits : Nat} {sz : BitVec 2} (h : sizeCode bits = some sz) : bits ∈ [8, 16, 32, 64] := by
  unfold sizeCode at h
  split at h
  case h_5 => cases h
  all_goals decide

theorem rawRequest_eq_some (wr : Bool) {bits off : Nat} (v : Word) (hbits : bits ∈ [8, 16, 32, 64])
    (hoff : off < Config.apertureBytes) :
    ∃ sz, rawRequest wr bits off v = some ⟨descriptor wr sz (BitVec.ofNat 13 off), v⟩ ∧ 8 * accessBytes sz = bits := by
  obtain ⟨sz, hsz, hbytes⟩ := sizeCode_of_mem hbits
  refine ⟨sz, ?_, hbytes⟩
  rw [rawRequest, hsz]
  exact if_pos hoff

theorem rawRequest_isSome (wr : Bool) (bits off : Nat) (v : Word) :
    (rawRequest wr bits off v).isSome = ([8, 16, 32, 64].contains bits && decide (off < Config.apertureBytes)) := by
  rw [Bool.eq_iff_iff, Bool.and_eq_true, decide_eq_true_iff, List.contains_iff_mem]
  constructor
  · intro h
    unfold rawRequest at h
    split at h
    next sz hsz =>
      split at h
      next hoff => exact ⟨mem_of_sizeCode hsz, hoff⟩
      next => cases h
    next => cases h
  · rintro ⟨hbits, hoff⟩
    obtain ⟨sz, hsome, -⟩ := rawRequest_eq_some wr v hbits hoff
    rw [hsome, Option.isSome_some]

theorem assemble_isSome (l : Line) : (assemble l).isSome = l.wf := by
  cases l with
  | wrRaw bits off v => exact rawRequest_isSome true bits off v
  | rdRaw bits off => exact rawRequest_isSome false bits off 0
  | _ => rfl

/-- What the descriptor of a well-formed raw line carries. -/
theorem rawRequest_fields (wr : Bool) {bits off : Nat} (v : Word) (hbits : bits ∈ [8, 16, 32, 64])
    (hoff : off < Config.apertureBytes) :
    ∃ q, rawRequest wr bits off v = some q ∧ q.wdata = v ∧ q.wf = true ∧ adWrite q.ad = wr ∧
      8 * accessBytes (adSize q.ad) = bits ∧ (adOffset q.ad).toNat = off := by
  obtain ⟨sz, hsome, hbytes⟩ := rawRequest_eq_some wr v hbits hoff
  refine ⟨_, hsome, rfl, descriptor_wf .., adWrite_descriptor .., ?_, ?_⟩
  · rwa [adSize_descriptor]
  · rw [adOffset_descriptor, BitVec.toNat_ofNat]
    exact Nat.mod_eq_of_lt hoff

/-- Settles O55: a line's bits or'ed together are the descriptor's fields appended, and a raw line is made of its fields. -/
theorem programLinesAssembleToTheirDescriptors : Obligations.ProgramLinesAssembleToTheirDescriptors := by
  refine ⟨assemble_wr32, assemble_wr8Data, assemble_rd32, assemble_rdTable, assemble_isSome, fun bits off v hwf => ?_⟩
  obtain ⟨hcontains, hdecide⟩ := Bool.and_eq_true_iff.mp hwf
  have hbits : bits ∈ [8, 16, 32, 64] := List.contains_iff_mem.mp hcontains
  have hoff : off < Config.apertureBytes := of_decide_eq_true hdecide
  obtain ⟨w, hw, hwdata, hwwf, hwwrite, hwsize, hwoff⟩ := rawRequest_fields true v hbits hoff
  obtain ⟨r, hr, -, hrwf, hrwrite, hrsize, hroff⟩ := rawRequest_fields false 0 hbits hoff
  exact ⟨w, r, hw, hr, hwdata, hwwf, hwwrite, hwsize, hwoff, hrwf, hrwrite, hrsize, hroff⟩

/-! ## Pseudo-instructions (R70) -/

theorem pseudoRequests_update_cons (b0 b1 b2 b3 : Byte) (rest : List Byte) :
    pseudoRequests (.update (b0 :: b1 :: b2 :: b3 :: rest)) =
      ⟨0xC0000008, packWord b0 b1 b2 b3⟩ :: pseudoRequests (.update rest) := rfl

/-- Fewer than four bytes are written one by one. -/
theorem pseudoRequests_update_of_length_lt {bs : List Byte} (h : bs.length < 4) :
    pseudoRequests (.update bs) = bs.map fun b => ⟨0x80000008, b.setWidth 32⟩ := by
  match bs with
  | [] | [_] | [_, _] | [_, _, _] => rfl
  | _ :: _ :: _ :: _ :: _ => simp at h; omega

/-- `update s` is the word writes of the full groups of four bytes, then the byte writes of the rest. -/
theorem pseudoRequests_update (bs : List Byte) : ∃ ws : List Word, ∃ tail : List Byte,
    pseudoRequests (.update bs) =
      ws.map (fun w => ⟨0xC0000008, w⟩) ++ tail.map (fun b => ⟨0x80000008, b.setWidth 32⟩) ∧
    ws.length = bs.length / 4 ∧ tail.length = bs.length % 4 ∧ ws.flatMap wordBytes ++ tail = bs := by
  match bs with
  | b0 :: b1 :: b2 :: b3 :: rest =>
    obtain ⟨ws, tail, hrequests, hwords, htail, hbytes⟩ := pseudoRequests_update rest
    refine ⟨packWord b0 b1 b2 b3 :: ws, tail, ?_, ?_, ?_, ?_⟩
    · rw [pseudoRequests_update_cons, hrequests, List.map_cons, List.cons_append]
    · simp only [List.length_cons, hwords]
      omega
    · simp only [List.length_cons, htail]
      omega
    · rw [List.flatMap_cons, List.append_assoc, hbytes, wordsArePackedLittleEndian.1]
      rfl
  | [] | [_] | [_, _] | [_, _, _] => exact ⟨[], _, pseudoRequests_update_of_length_lt (by simp), by simp, by simp, rfl⟩

/-- Settles O54: the first seven are one line each, and `update` goes by groups of four bytes. -/
theorem pseudoInstructionsExpandToTheirAccesses : Obligations.PseudoInstructionsExpandToTheirAccesses :=
  ⟨fun _ => rfl, rfl, rfl, rfl, rfl, rfl, rfl, pseudoRequests_update⟩

end Machine
end Sys2Proof
end

section
/-! PROOFS of the family 40_table_builder: the entries of the built tables as iterations of R80's loop, with their properties (R80,
R81, R86, R87), and the encodings, effects and bus errors of WR.POLY, RD.POLY and RD.TABLE (R83 to R85). -/

namespace Sys2Proof

/-! ## The bus errors of a descriptor from R122 alone -/

theorem toNat_tableOffset (k : BitVec 2) (i : Byte) :
    (tableOffset k i).toNat = 0x1000 + 1024 * k.toNat + 4 * i.toNat := by
  simp only [tableOffset, BitVec.toNat_append]
  rw [← Nat.shiftLeft_add_eq_or_of_lt k.isLt, ← Nat.shiftLeft_add_eq_or_of_lt i.isLt,
    ← Nat.shiftLeft_add_eq_or_of_lt (0#2).isLt]
  simp only [Nat.shiftLeft_eq, BitVec.toNat_ofNat]
  omega

theorem acceptsBytes_table (sz : BitVec 2) : Target.table.acceptsBytes (accessBytes sz) = decide (sz = 2) := by
  decide +revert

theorem Reg.offset_toNat_lt (r : Reg) : r.offset.toNat < 0x1000 := by cases r <;> decide

/-- From 0x1000 on, the TABLE window is what an offset is mapped to (R37). -/
theorem targetAt_of_window {off : BitVec 13} (hwindow : 0x1000 ≤ off.toNat) : targetAt off = some .table := by
  cases htarget : targetAt off with
  | none => exact absurd (targetAt_eq_none_iff.mp htarget).2 (Nat.not_lt.mpr hwindow)
  | some t =>
    rcases targetAt_eq_some htarget with ⟨r, -, rfl⟩ | ⟨rfl, -⟩
    · exact absurd hwindow (Nat.not_le.mpr r.offset_toNat_lt)
    · rfl

/-- R122 in the TABLE window. -/
theorem cause_of_window {off : BitVec 13} (wr : Bool) (sz : BitVec 2) (hwindow : 0x1000 ≤ off.toNat) :
    cause wr (accessBytes sz) off =
      if off.toNat % 2 ^ sz.toNat ≠ 0 then some .misaligned
      else if sz ≠ 2 then some .badWidth
      else if wr then some .readOnly
      else none := by
  simp [cause, targetAt_of_window hwindow, acceptsBytes_table, ← accessBytes_eq_two_pow, Target.isReadOnly,
    Target.isWriteOnly]

theorem cause_encode (i : Instr) :
    cause (adWrite (encode i).ad) (accessBytes (adSize (encode i).ad)) (adOffset (encode i).ad) = none := by
  cases i with
  | rdTable k j =>
    have hoff := toNat_tableOffset k j
    have haligned : (tableOffset k j).toNat % 4 = 0 := by omega
    rw [encode, adWrite_descriptor, adSize_descriptor, adOffset_descriptor, cause_of_window _ _ (by omega)]
    exact if_neg (not_not_intro haligned)
  | _ => simp only [encode, adWrite_descriptor, adSize_descriptor, adOffset_descriptor]; decide

/-- An access with a cause of R122 is a bus error of that cause, for it matches no row. -/
theorem decode_of_cause {wr : Bool} {sz : BitVec 2} {off : BitVec 13} {c : Cause} (w : Word)
    (hcause : cause wr (accessBytes sz) off = some c) : decode ⟨descriptor wr sz off, w⟩ = .busError c := by
  have hrsv : adReserved (descriptor wr sz off) = 0 := adReserved_descriptor ..
  refine decode_of_no_row hrsv (fun row hrow => eq_false_of_ne_true fun hacc => ?_) (by simpa using hcause)
  have had := (decodedFormDeterminesItsRequest ⟨descriptor wr sz off, w⟩ _ (decode_of_accepts hrsv hrow hacc)).1
  have hnone := had ▸ cause_encode (row.make (descriptor wr sz off) w)
  simp [hcause] at hnone

/-! ## A read's data word (R60) -/

theorem make_of_isRead {row : Row} (hrow : row ∈ opcodeMap) {ad w : Word} (hread : (row.make ad w).isRead = true)
    (w' : Word) : row.make ad w' = row.make ad w := by
  simp only [opcodeMap, List.mem_cons, List.not_mem_nil, or_false] at hrow
  rcases hrow with rfl | rfl | rfl | rfl | rfl | rfl | rfl | rfl | rfl | rfl <;>
    [cases hread; rfl; rfl; cases hread; rfl; rfl; rfl; cases hread; cases hread; cases hread]

/-- A read is decoded alike whatever its data word. -/
theorem decode_of_isRead {ad w : Word} {i : Instr} (hread : i.isRead = true) (h : decode ⟨ad, w⟩ = .access i)
    (w' : Word) : decode ⟨ad, w'⟩ = .access i := by
  obtain ⟨row, hrow, hacc, rfl⟩ := accepts_of_decode h
  have hrsv : adReserved ad = 0 := by
    by_contra hne
    rw [decode_of_reserved (r := ⟨ad, w⟩) hne] at h
    cases h
  rw [decode_of_accepts (r := ⟨ad, w'⟩) hrsv hrow hacc]
  exact congrArg Verdict.access (make_of_isRead hrow hread w')

/-- POLY takes 32 bits alone (R83, R84). -/
theorem decode_poly_of_other_size (wr : Bool) (w : Word) (sz : BitVec 2) (hsz : sz ≠ 2) :
    decode ⟨descriptor wr sz 0x000, w⟩ = .busError .badWidth :=
  decode_of_cause w ((by decide : ∀ (wr : Bool) (sz : BitVec 2), sz ≠ 2 →
    cause wr (accessBytes sz) 0x000 = some .badWidth) wr sz hsz)

namespace Machine

/-! ## R80's loop and R81's recurrence -/

/-- R80 tests bit 0 as `crc & 1 == 1`. -/
theorem tableStep_eq (p c : Word) : tableStep p c = if c &&& 1 = 1 then (c >>> 1) ^^^ p else c >>> 1 := by
  have hbit : c &&& 1 = 1 ↔ c.getLsbD 0 = true := by
    rw [show c &&& 1 = (BitVec.ofBool (c.getLsbD 0)).setWidth 32 from BitVec.and_one_eq_setWidth_ofBool_getLsbD]
    cases c.getLsbD 0 <;> decide
  simp only [tableStep, hbit]

/-- Settles O18: an iteration of the loop that takes no account of its count is a power of the step. -/
theorem buildTableRunsTheLoopForEveryIndex : Obligations.BuildTableRunsTheLoopForEveryIndex := by
  refine fun p => ⟨Table.words_length _, fun i => ?_⟩
  simp only [buildTable_entry, tableEntry, ← tableStep_eq, List.foldl_const, List.length_range]

/-- `x & 0xFF` is the low byte of `x`. -/
theorem setWidth_and_0xFF (x : Word) : (x &&& 0xFF).setWidth 8 = x.setWidth 8 := by
  rw [BitVec.setWidth_and]
  exact BitVec.and_allOnes

/-- Settles O19: T0 is `buildTable`, and each later table is `nextTable` of T0 and the one before it. -/
theorem slicedTablesFollowTheRecurrence : Obligations.SlicedTablesFollowTheRecurrence := by
  intro p i
  simp only [setWidth_and_0xFF]
  exact ⟨rfl, nextTable_entry .., nextTable_entry .., nextTable_entry ..⟩

/-! ## The properties of the built tables (R86), from the loop's -/

theorem tableStep_zero (p : Word) : tableStep p 0 = 0 := by simp [tableStep]

/-- Entry `i` of Tk is `8 * k + 8` iterations of R80 on `i`. -/
theorem buildSlicedTable_entry_eq_iterate (p : Word) (k : BitVec 2) (i : Byte) :
    (buildSlicedTable p).entry k i = (tableStep p)^[8 * k.toNat + 8] (i.setWidth 32) := by
  rw [buildSlicedTable_entry, tableEntry, Function.iterate_add_apply]

theorem buildSlicedTable_entry_index_zero (p : Word) (k : BitVec 2) : (buildSlicedTable p).entry k 0 = 0 := by
  rw [buildSlicedTable_entry_eq_iterate]
  exact Function.iterate_fixed (tableStep_zero p) _

/-- Seven iterations move 0x80's bit down to bit 0, and the eighth puts the polynomial in. -/
theorem buildSlicedTable_entry_zero_0x80 (p : Word) : (buildSlicedTable p).entry 0 0x80 = p := by
  have hlow : ∀ j < 7, (0x80#32).getLsbD j = false := by decide
  have hseven : (tableStep p)^[7] 0x80#32 = 1#32 := by
    have hshift := tableStep_iterate_xor_of_low_zero p 0 0x80#32 7 hlow
    rw [Function.iterate_fixed (tableStep_zero p)] at hshift
    simpa using hshift
  calc (buildSlicedTable p).entry 0 0x80
      = (tableStep p)^[7 + 1] 0x80#32 := buildSlicedTable_entry_eq_iterate p 0 0x80
    _ = tableStep p ((tableStep p)^[7] 0x80#32) := Function.iterate_succ_apply' ..
    _ = p := by
        rw [hseven]
        simp [tableStep]

theorem buildSlicedTable_entry_xor (p : Word) (k : BitVec 2) (a b : Byte) :
    (buildSlicedTable p).entry k (a ^^^ b) = (buildSlicedTable p).entry k a ^^^ (buildSlicedTable p).entry k b := by
  simp only [buildSlicedTable_entry_eq_iterate, BitVec.setWidth_xor, tableStep_iterate_xor_iterate]

/-- Folding in a zero byte is eight iterations of R80 on the register. -/
theorem fold8_zero_byte (p c : Word) : fold8 (buildSlicedTable p) c 0 = (tableStep p)^[8] c := by
  rw [fold8_eq_tableStep_iterate]
  exact congrArg _ (BitVec.xor_zero ..)

theorem foldl_fold8_zero_bytes (p c : Word) (n : Nat) :
    (List.replicate n (0 : Byte)).foldl (fold8 (buildSlicedTable p)) c = (tableStep p)^[8 * n] c := by
  induction n generalizing c with
  | zero => rfl
  | succ n ih => rw [List.replicate_succ, List.foldl_cons, fold8_zero_byte, ih, Nat.mul_succ, Function.iterate_add_apply]

/-- An entry of Tk is the CRC from 0 after its byte and `k` zero bytes. -/
theorem buildSlicedTable_entry_eq_foldl (p : Word) (k : BitVec 2) (i : Byte) :
    (buildSlicedTable p).entry k i =
      (List.replicate k.toNat (0 : Byte)).foldl (fold8 (buildSlicedTable p)) (fold8 (buildSlicedTable p) 0 i) := by
  have hbyte : fold8 (buildSlicedTable p) 0 i = tableEntry p i :=
    (fold8_eq_tableStep_iterate p 0 i).trans (congrArg _ (BitVec.zero_xor ..))
  rw [foldl_fold8_zero_bytes, hbyte, buildSlicedTable_entry]

/-- An entry of Tk is the zero-byte fold of the entry of T(k-1). -/
theorem buildSlicedTable_entry_succ (p : Word) {j k : BitVec 2} (hj : j.toNat = k.toNat + 1) (i : Byte) :
    (buildSlicedTable p).entry j i = fold8 (buildSlicedTable p) ((buildSlicedTable p).entry k i) 0 := by
  rw [fold8_zero_byte, buildSlicedTable_entry, buildSlicedTable_entry, hj, Nat.mul_succ, Nat.add_comm,
    Function.iterate_add_apply]

/-- Under the polynomial 0, the loop only moves the register right. -/
theorem tableStep_poly_zero (c : Word) : tableStep 0 c = c >>> 1 := by simp [tableStep]

theorem tableStep_poly_zero_iterate (c : Word) (n : Nat) : (tableStep 0)^[n] c = c >>> n := by
  induction n with
  | zero => simp
  | succ n ih => rw [Function.iterate_succ_apply', ih, tableStep_poly_zero, BitVec.shiftRight_add]

theorem tableEntry_poly_zero (i : Byte) : tableEntry 0 i = 0 :=
  (tableStep_poly_zero_iterate _ 8).trans (byte_shiftRight_eight i)

/-- Settles O20: an entry of Tk is `8 * k + 8` iterations of R80 on its index, and the loop is linear and keeps 0. -/
theorem builtTablesHaveTheirProperties : Obligations.BuiltTablesHaveTheirProperties := by
  refine fun p => ⟨buildSlicedTable_entry_index_zero p, buildSlicedTable_entry_zero_0x80 p, buildSlicedTable_entry_xor p,
    fun i => ⟨buildSlicedTable_entry_succ p rfl i, buildSlicedTable_entry_succ p rfl i,
      buildSlicedTable_entry_succ p rfl i⟩, buildSlicedTable_entry_eq_foldl p, ?_⟩
  rintro rfl k i
  rw [buildSlicedTable_entry, tableEntry_poly_zero]
  exact Function.iterate_fixed (tableStep_zero 0) _

/-! ## WR.POLY, RD.POLY and RD.TABLE (R83 to R85) -/

/-- The table RAM's bytes of an entry are those of its word, the lowest first. -/
theorem ramByte_of_entry (s : State) (k : BitVec 2) (i : Byte) {j : Nat} (hj : j < 4) :
    s.ramByte (1024 * k.toNat + 4 * i.toNat + j) = some (wordByte (s.tbl.entry k i) j) := by
  have hk : k.toNat < 4 := k.isLt
  have hi : i.toNat < 256 := i.isLt
  have htable : BitVec.ofNat 2 ((1024 * k.toNat + 4 * i.toNat + j) / 1024) = k :=
    BitVec.eq_of_toNat_eq (by rw [BitVec.toNat_ofNat]; omega)
  have hindex : BitVec.ofNat 8 ((1024 * k.toNat + 4 * i.toNat + j) / 4) = i :=
    BitVec.eq_of_toNat_eq (by rw [BitVec.toNat_ofNat]; omega)
  have hlane : (1024 * k.toNat + 4 * i.toNat + j) % 4 = j := by omega
  rw [State.ramByte, if_pos (by omega), htable, hindex, hlane]

/-- Settles O43: the write replaces TBL whole, and the RAM's bytes are those of TBL's entries. -/
theorem polyWriteFrame : Obligations.PolyWriteFrame := by
  intro v s t h
  cases h
  exact ⟨rfl, rfl, rfl, rfl, fun a ha => (ramByte_none _ ha).trans (ramByte_none s ha).symm,
    fun k i j hj => ramByte_of_entry _ k i hj⟩

/-- Settles O15: the effect is that of loading the polynomial and restarting the CRC. -/
theorem wrPolyLoadsBuildsAndRestarts : Obligations.WrPolyLoadsBuildsAndRestarts := fun v s =>
  ⟨decode_encode (.wrPoly v), exec_wrPoly v s, decode_poly_of_other_size true v⟩

/-- Settles O16: the effect is the answer alone, and the reset polynomial is R23's. -/
theorem rdPolyReturnsThePolynomial : Obligations.RdPolyReturnsThePolynomial :=
  ⟨fun s w => ⟨decode_of_isRead rfl (decode_encode .rdPoly) w, exec_rdPoly s, decode_poly_of_other_size false w⟩,
    exec_rdPoly State.reset⟩

theorem decode_rdTable (k : BitVec 2) (i : Byte) (w : Word) :
    decode ⟨0x40001000#32 ||| k.setWidth 32 <<< 10 ||| i.setWidth 32 <<< 2, w⟩ = .access (.rdTable k i) := by
  rw [tableLine_descriptor]
  exact decode_of_isRead rfl (decode_encode (.rdTable k i)) w

/-- Settles O17: entry 0 of a built table is 0, and R122 gives the bus errors of the window. -/
theorem rdTableReturnsTheEntry : Obligations.RdTableReturnsTheEntry := by
  refine ⟨fun k i s w => ⟨decode_rdTable k i w, exec_rdTable k i s⟩, fun k i s htbl => ⟨?entry, ?entryZero⟩,
    fun off w hwindow => ⟨fun hoff => ?_, fun sz hsz => ?_, fun sz => ?_⟩⟩
  case entry =>
    rw [← htbl]
    exact exec_rdTable k i s
  case entryZero =>
    have hzero : s.tbl.entry k 0 = 0 := by rw [htbl, buildSlicedTable_entry_index_zero]
    exact (exec_rdTable k 0 s).trans (by rw [hzero]; rfl)
  all_goals refine decode_of_cause w ((cause_of_window _ _ hwindow).trans ?_)
  · exact if_pos hoff
  · simp only [hsz, ne_eq, not_false_eq_true, if_true]
    split <;> rfl
  · split
    · rfl
    · split <;> rfl

end Machine
end Sys2Proof
end

section
/-! PROOFS of the family 41_engine_control: the encodings, effects and frames of RD.CTRL, WR.CTRL, RD.DIGEST, RD.STATUS and
WR.STATUS (R90 to R96), the engine's state machine (R97), and the digest of a stream (R94). -/

namespace Sys2Proof

/-- STATUS takes 32 bits alone (R95, R96). -/
theorem decode_status_of_other_size (wr : Bool) (w : Word) (sz : BitVec 2) (hsz : sz ≠ 2) :
    decode ⟨descriptor wr sz 0x010, w⟩ = .busError .badWidth :=
  decode_of_cause w ((by decide : ∀ (wr : Bool) (sz : BitVec 2), sz ≠ 2 →
    cause wr (accessBytes sz) 0x010 = some .badWidth) wr sz hsz)

theorem Instr.bytes_of_isRead {i : Instr} (h : i.isRead = true) : i.bytes = [] := by
  cases i with
  | wrPoly | wrCtrl | wrStatus | wr8Data | wr32Data => cases h
  | rdPoly | rdTable | rdCtrl | rdDigest | rdStatus => rfl

theorem Request.bytes_of_access {r : Request} {i : Instr} (h : decode r = .access i) : r.bytes = i.bytes := by
  rw [Request.bytes, h]

theorem Request.bytes_of_busError {r : Request} {c : Cause} (h : decode r = .busError c) : r.bytes = [] := by
  rw [Request.bytes, h]

/-- A request that keeps the stream going is an access form that does not restart it, or a bus error. -/
theorem Request.keepsStream_iff {r : Request} :
    r.keepsStream = true ↔ (∃ i, decode r = .access i ∧ i.restarts = false) ∨ ∃ c, decode r = .busError c := by
  cases h : decode r <;> simp [Request.keepsStream, h]

namespace Machine

variable {p : Word} {s t : State} {i : Instr} {r : Request}

/-! ## The digest of a stream (R94) -/

/-- A word fold through the built tables is four bit-serial byte steps, b0 first, under either ALG. -/
theorem fold32_eq_foldl_crcByte (a : Alg) (p c w : Word) :
    fold32 a (buildSlicedTable p) c w = (wordBytes w).foldl (crcByte p) c := by
  simp only [fold32_eq_fold32Simple, fold32Simple, byteFoldIsTheBitSerialCrc p]
  rfl

/-- An access form that does not restart the stream keeps the tables and steps CRC over the bytes it carries. -/
theorem exec_stream (htbl : s.tbl = buildSlicedTable p) (hi : i.restarts = false) (h : exec i s = .next t) :
    t.tbl = buildSlicedTable p ∧ t.crc = i.bytes.foldl (crcByte p) s.crc := by
  rcases exec_next h with ⟨hread, d, rfl⟩ | ⟨v, rfl, -⟩ | ⟨v, rfl, hbit, -⟩ | ⟨v, rfl, -, rfl⟩ | ⟨v, rfl, -, rfl⟩ |
    ⟨v, rfl, -, rfl⟩ | ⟨b, rfl, rfl⟩ | ⟨w, rfl, rfl⟩
  · rw [Instr.bytes_of_isRead hread]
    exact ⟨htbl, rfl⟩
  · cases hi
  · exact absurd (hbit.symm.trans hi) (by decide)
  · exact ⟨htbl, rfl⟩
  · exact ⟨htbl, rfl⟩
  · exact ⟨htbl, rfl⟩
  · exact ⟨htbl, (congrArg (fold8 · s.crc b) htbl).trans (byteFoldIsTheBitSerialCrc p s.crc b)⟩
  · exact ⟨htbl, (congrArg (fold32 s.alg · s.crc w) htbl).trans (fold32_eq_foldl_crcByte s.alg p s.crc w)⟩

theorem performAccess_stream (htbl : s.tbl = buildSlicedTable p) (hr : r.keepsStream = true) :
    ∃ t, performAccess r s = .next t ∧ t.tbl = buildSlicedTable p ∧ t.crc = r.bytes.foldl (crcByte p) s.crc := by
  rcases Request.keepsStream_iff.mp hr with ⟨i, hdec, hi⟩ | ⟨c, hdec⟩
  · obtain ⟨t, hexec⟩ := exec_exists_next i s
    rw [performAccess_of_access hdec, Request.bytes_of_access hdec]
    exact ⟨t, hexec, exec_stream htbl hi hexec⟩
  · rw [Request.bytes_of_busError hdec]
    exact ⟨_, performAccess_of_busError hdec s, htbl, rfl⟩

/-- A sequence that does not restart the stream completes, keeps the tables, and steps CRC over the bytes it carries. -/
theorem performAll_stream {rs : List Request} (htbl : s.tbl = buildSlicedTable p) (hrs : ∀ r ∈ rs, r.keepsStream = true) :
    ∃ t, performAll rs s = .next t ∧ t.tbl = buildSlicedTable p ∧
      t.crc = (streamBytes rs).foldl (crcByte p) s.crc := by
  induction rs generalizing s with
  | nil => exact ⟨s, rfl, htbl, rfl⟩
  | cons r rs ih =>
    obtain ⟨hr, hrest⟩ := List.forall_mem_cons.mp hrs
    obtain ⟨u, hfirst, htblu, hcrcu⟩ := performAccess_stream htbl hr
    obtain ⟨t, hall, htblt, hcrct⟩ := ih htblu hrest
    have hbytes : streamBytes (r :: rs) = r.bytes ++ streamBytes rs := List.flatMap_cons
    rw [performAll_cons_of_next hfirst, hbytes, List.foldl_append, ← hcrcu]
    exact ⟨t, hall, htblt, hcrct⟩

/-- Settles O37: from all-ones, CRC is the register of the bytes carried, and the read complements it. -/
theorem digestIsTheCrcOfTheStream : Obligations.DigestIsTheCrcOfTheStream := by
  intro p rs s hclean hrs
  obtain ⟨t, hall, -, hcrc⟩ := performAll_stream hclean.tbl hrs
  have hregister : t.crc = crcRegister p (streamBytes rs) := by rw [hcrc, hclean.crc, crcRegister]
  refine ⟨t, _, hall, exec_rdDigest t, ?_⟩
  rw [crc32, ← hregister]
  rfl

/-! ## The control and status accesses (R90 to R96) -/

/-- WR.CTRL register by register (R91). -/
theorem exec_wrCtrl_eq (v : Word) (s : State) :
    exec (.wrCtrl v) s = .next { s with
      alg := if v.getLsbD 1 then .sliced else .simple,
      crc := if v.getLsbD 0 then 0xFFFFFFFF else s.crc,
      phase := if v.getLsbD 0 then .ready else s.phase,
      response := some .done } := by
  rw [exec_wrCtrl, ctrlResetBit]
  cases v.getLsbD 0 <;> rfl

/-- WR.STATUS register by register (R96). -/
theorem exec_wrStatus_eq (v : Word) (s : State) :
    exec (.wrStatus v) s = .next { s with
      err := s.err && !v.getLsbD 1, errCause := if v.getLsbD 1 then 0 else s.errCause, response := some .done } := by
  rw [exec_wrStatus, statusClearBit]
  cases v.getLsbD 1
  · rw [Bool.not_false, Bool.and_true]
    rfl
  · rw [Bool.not_true, Bool.and_false]
    rfl

theorem ctrlWord_eq (s : State) : s.ctrlWord = if s.alg = .sliced then 0x00000002 else 0x00000000 := by
  unfold State.ctrlWord
  cases s.alg <;> decide

/-- Settles O22: the read answers the CTRL word. -/
theorem rdCtrlReturnsAlg : Obligations.RdCtrlReturnsAlg := by
  refine fun s w => ⟨decode_of_isRead rfl (decode_encode .rdCtrl) w, ?_⟩
  rw [← ctrlWord_eq]
  exact exec_rdCtrl s

/-- Settles O23: the effect is WR.CTRL's, register by register. -/
theorem wrCtrlSetsAlgAndResets : Obligations.WrCtrlSetsAlgAndResets := fun v s =>
  ⟨decode_encode (.wrCtrl v), exec_wrCtrl_eq v s⟩

/-- Settles O24: a bit of the complement is the complement of the bit. -/
theorem rdDigestReturnsTheComplement : Obligations.RdDigestReturnsTheComplement := fun s w =>
  ⟨decode_of_isRead rfl (decode_encode .rdDigest) w, _, exec_rdDigest s, fun n hn => by
    rw [BitVec.getLsbD_not, decide_eq_true hn, Bool.true_and]⟩

theorem phaseBit_getLsbD (ph : Phase) : (phaseBit ph).getLsbD 0 = decide (ph = .accumulating) := by
  cases ph <;> rfl

/-- The fields of a STATUS read (R95). -/
theorem statusWord_fields (s : State) :
    s.statusWord.getLsbD 0 = decide (s.phase = .accumulating) ∧ s.statusWord.getLsbD 1 = s.err ∧
      s.statusWord.extractLsb' 2 2 = 0 ∧ s.statusWord.extractLsb' 4 4 = s.errCause ∧
      s.statusWord.extractLsb' 8 24 = 0 := by
  have hfields : ∀ (c : BitVec 4) (e : Bool) (ph : BitVec 1),
      let d : Word := (c ++ 0#2 ++ BitVec.ofBool e ++ ph).setWidth 32
      d.getLsbD 0 = ph.getLsbD 0 ∧ d.getLsbD 1 = e ∧ d.extractLsb' 2 2 = 0 ∧ d.extractLsb' 4 4 = c ∧
        d.extractLsb' 8 24 = 0 := by decide
  rw [← phaseBit_getLsbD]
  exact hfields _ _ _

/-- Settles O25: the read answers the STATUS word, whose ERRCAUSE is 0 where ERR is, by R123. -/
theorem rdStatusReturnsTheFlags : Obligations.RdStatusReturnsTheFlags := by
  refine ⟨fun s w => ⟨decode_of_isRead rfl (decode_encode .rdStatus) w, ?_, decode_status_of_other_size false w⟩,
    exec_rdStatus State.reset⟩
  obtain ⟨hphase, herr, hlow, hcause, hhigh⟩ := statusWord_fields s
  exact ⟨_, exec_rdStatus s, hphase, herr, hlow, hcause, hhigh,
    fun hinv hclear => hcause.trans (hinv.mpr (herr.symm.trans hclear))⟩

/-- A STATUS write of no recorded error changes nothing but the answer (R96). -/
theorem exec_wrStatus_of_no_error (v : Word) (herr : s.err = false) (hcause : s.errCause = 0) :
    exec (.wrStatus v) s = .next { s with response := some .done } := by
  have hclear : s.clearError = s := State.ext_fields rfl rfl rfl rfl herr.symm hcause.symm rfl rfl rfl
  rw [exec_wrStatus, hclear, ite_self]
  rfl

/-- Settles O26: the write is read in bit 1 alone, and with no error recorded the clear finds nothing to clear. -/
theorem wrStatusClearsTheError : Obligations.WrStatusClearsTheError := fun v s =>
  ⟨decode_encode (.wrStatus v), exec_wrStatus_eq v s,
    fun hinv herr => exec_wrStatus_of_no_error v herr (hinv.mpr herr),
    exec_wrStatus_congr s (by decide), decode_status_of_other_size true v⟩

/-- Settles O42: what either write leaves is its effect, register by register, and TBL is in neither. -/
theorem controlWritesFrame : Obligations.ControlWritesFrame := by
  refine fun v s t => ⟨fun h => ?_, fun h => ?_⟩
  · obtain rfl := Host.Outcome.next.inj ((exec_wrCtrl_eq v s).symm.trans h)
    exact ⟨rfl, rfl, rfl, rfl, rfl,
      fun hbit => ⟨if_neg (ne_true_of_eq_false hbit), if_neg (ne_true_of_eq_false hbit)⟩, ramByte_congr rfl⟩
  · obtain rfl := Host.Outcome.next.inj ((exec_wrStatus_eq v s).symm.trans h)
    exact ⟨rfl, rfl, rfl, rfl, rfl, rfl,
      fun hbit => ⟨by simp only [hbit, Bool.not_false, Bool.and_true], if_neg (ne_true_of_eq_false hbit)⟩,
      ramByte_congr rfl⟩

/-- Settles O28: both restart the CRC, and building the tables of POLY again builds the tables there are. -/
theorem ctrlResetEqualsRewritingThePolynomial : Obligations.CtrlResetEqualsRewritingThePolynomial := by
  intro v s hbit htbl
  have hload : s.loadPoly s.poly = s := by rw [State.loadPoly, ← htbl]
  have hctrl : exec (.wrCtrl v) s = .next ((s.setAlg (ctrlAlg v)).restartCrc.respond .done) := by
    rw [exec_wrCtrl, ctrlResetBit, if_pos hbit]
  have hzero : ~~~0xFFFFFFFF#32 = 0x00000000#32 := by decide
  refine ⟨_, _, _, hctrl, exec_wrPoly s.poly s, ?_, exec_rdDigest _, congrArg (some <| Response.data ·) hzero⟩
  rw [hload]
  rfl

/-! ## The engine's state machine (R97) -/

/-- An access form restarts the engine, leaves it accumulating, or leaves PHASE and CRC as they were. -/
theorem exec_engine (h : exec i s = .next t) :
    (t.phase = .ready ∧ t.crc = 0xFFFFFFFF) ∨ t.phase = .accumulating ∨ (t.phase = s.phase ∧ t.crc = s.crc) := by
  rcases exec_next h with ⟨-, d, rfl⟩ | ⟨v, -, rfl⟩ | ⟨v, -, -, rfl⟩ | ⟨v, -, -, rfl⟩ | ⟨v, -, -, rfl⟩ | ⟨v, -, -, rfl⟩ |
    ⟨b, -, rfl⟩ | ⟨w, -, rfl⟩
  · exact .inr (.inr ⟨rfl, rfl⟩)
  · exact .inl ⟨rfl, rfl⟩
  · exact .inl ⟨rfl, rfl⟩
  · exact .inr (.inr ⟨rfl, rfl⟩)
  · exact .inr (.inr ⟨rfl, rfl⟩)
  · exact .inr (.inr ⟨rfl, rfl⟩)
  · exact .inr (.inl rfl)
  · exact .inr (.inl rfl)

theorem step_engine (h : step s = .next t) :
    (t.phase = .ready ∧ t.crc = 0xFFFFFFFF) ∨ t.phase = .accumulating ∨ (t.phase = s.phase ∧ t.crc = s.crc) := by
  rcases step_next h with ⟨-, rfl⟩ | ⟨r, rest, i, -, -, hexec⟩ | ⟨r, rest, c, -, -, rfl⟩ | ⟨-, rest, -, rfl⟩
  · exact .inr (.inr ⟨rfl, rfl⟩)
  · exact exec_engine (s := { s with bus := rest }) hexec
  · exact .inr (.inr (by simp))
  · exact .inl ⟨rfl, rfl⟩

theorem step_keeps_readyOnes (hs : s.phase = .ready → s.crc = 0xFFFFFFFF) (h : step s = .next t)
    (hready : t.phase = .ready) : t.crc = 0xFFFFFFFF := by
  rcases step_engine h with ⟨-, hcrc⟩ | hacc | ⟨hphase, hcrc⟩
  · exact hcrc
  · exact absurd (hready.symm.trans hacc) (by decide)
  · exact hcrc.trans (hs (hphase.symm.trans hready))

theorem exec_wrCtrl_engine {v : Word} (h : exec (.wrCtrl v) s = .next t) :
    if v.getLsbD 0 then t.phase = .ready ∧ t.crc = 0xFFFFFFFF else t.phase = s.phase ∧ t.crc = s.crc := by
  cases (exec_wrCtrl_eq v s).symm.trans h
  split <;> exact ⟨rfl, rfl⟩

theorem fold32_eq_ite (a : Alg) (ts : Tables) (c w : Word) :
    fold32 a ts c w = if a = .sliced then fold32Sliced ts c w else fold32Simple ts c w := by
  cases a <;> rfl

/-- Settles O29: each row of the table is the effect of its access form, and no row leaves Ready with another CRC. -/
theorem engineMovesAsTheStateMachineSays : Obligations.EngineMovesAsTheStateMachineSays := by
  refine ⟨fun s t e rest hbus h => ?_, fun s t hbus h => ?_, fun s t => step_keeps_readyOnes⟩
  · rw [step_of_bus_cons hbus] at h
    cases e with
    | blockReset a =>
      cases h
      exact ⟨rfl, rfl⟩
    | access r =>
      replace h : performAccess r { s with bus := rest } = .next t := h
      cases hdec : decode r with
      | invalid =>
        rw [performAccess_of_invalid hdec] at h
        cases h
      | busError c =>
        rw [performAccess_of_busError hdec] at h
        cases h
        simp only [hdec, and_self]
      | access i =>
        rw [performAccess_of_access hdec] at h
        simp only [hdec]
        cases i with
        | wrPoly | wr8Data | rdPoly | rdTable | rdCtrl | rdDigest | rdStatus =>
          cases h
          exact ⟨rfl, rfl⟩
        | wrStatus v =>
          cases (exec_wrStatus_eq ..).symm.trans h
          exact ⟨rfl, rfl⟩
        | wr32Data w =>
          cases h
          exact ⟨rfl, fold32_eq_ite ..⟩
        | wrCtrl v => exact exec_wrCtrl_engine (s := { s with bus := rest }) h
  · cases (step_of_bus_nil hbus).symm.trans h
    exact ⟨rfl, rfl⟩

end Machine
end Sys2Proof
end

section
/-! PROOFS of the family 42_data_fold: the effects and frames of WR8.DATA and WR32.DATA (R100 to R104), the agreement of the two
fold algorithms and what it hides of ALG (R106), and a stream in chunks or by other accesses (R107, R108). -/

namespace Sys2Proof.Machine

variable {s t : State} {i : Instr} {r : Request}

/-! ## The two algorithms (R106) -/

/-- Settles O33: both word folds are 32 iterations of R80's loop on `c ^^^ w`. -/
theorem slicedFoldEqualsSimpleFold : Obligations.SlicedFoldEqualsSimpleFold := fun p c w =>
  (fold32Sliced_eq_iterate p c w).trans (fold32Simple_eq_iterate p c w).symm

/-! ## The effects and frames of the data writes (R100 to R104) -/

/-- The table index of a byte fold is the register's low byte with the input byte added (R100). -/
theorem setWidth_xor_byte (c : Word) (b : Byte) : (c ^^^ b.setWidth 32).setWidth 8 = c.setWidth 8 ^^^ b := by
  rw [BitVec.setWidth_xor, BitVec.setWidth_setWidth_of_le b (by decide), BitVec.setWidth_eq]

/-- Settles O30: the byte is WDATA's lowest, and the effect is the byte fold, which does not read ALG. -/
theorem wr8DataFoldsOneByte : Obligations.Wr8DataFoldsOneByte := by
  refine fun b w s => ⟨?decoded, ?effect⟩
  case decoded =>
    rw [BitVec.setWidth_eq_extractLsb' (by decide)]
    exact (writeOperandsComeFromTheirLanes w).1
  case effect =>
    rw [exec_wr8Data, fold8_eq, setWidth_xor_byte]
    rfl

/-- WR32.DATA by what the selected word fold gives (R104). -/
theorem exec_wr32Data_of_fold32 {c w : Word} (h : fold32 s.alg s.tbl s.crc w = c) :
    exec (.wr32Data w) s = .next ((s.setCrc c).setAccumulating.respond .done) := by
  rw [exec_wr32Data, h]

/-- Settles O31: for either ALG the effect is that algorithm's word fold. -/
theorem wr32DataFoldsByTheSelectedAlgorithm : Obligations.Wr32DataFoldsByTheSelectedAlgorithm := by
  refine fun w s => ⟨decode_encode (.wr32Data w), ?_⟩
  refine exec_wr32Data_of_fold32 ?_
  cases s.alg <;> rfl

/-- Settles O41: either write sets CRC, PHASE and the answer, and the RAM's bytes are those of TBL. -/
theorem dataWritesFrame : Obligations.DataWritesFrame := by
  rintro i s t (⟨b, rfl⟩ | ⟨w, rfl⟩) h
  all_goals
    cases h
    exact ⟨rfl, rfl, rfl, rfl, rfl, rfl, ramByte_congr rfl⟩

/-! ## The bytes of a stream (R107, R108) -/

/-- Settles O38: either sequence steps the start CRC over the bytes it carries. -/
theorem crcDependsOnPolynomialStartAndBytes : Obligations.CrcDependsOnPolynomialStartAndBytes := by
  intro rs rs' s s' htbl htbl' hpoly hcrc hrs hrs' hbytes
  obtain ⟨t, hall, -, hcrct⟩ := performAll_stream htbl hrs
  obtain ⟨t', hall', -, hcrct'⟩ := performAll_stream htbl' hrs'
  exact ⟨t, t', hall, hall', by rw [hcrct, hcrct', hpoly, hcrc, hbytes]⟩

theorem bytes_encode (i : Instr) : (encode i).bytes = i.bytes := Request.bytes_of_access (decode_encode i)

theorem keepsStream_encode (h : i.restarts = false) : (encode i).keepsStream = true :=
  Request.keepsStream_iff.mpr (.inl ⟨i, decode_encode i, h⟩)

/-- `update` carries its bytes in order, a full group of four by each word write (R42, R70). -/
theorem streamBytes_update (bs : List Byte) : streamBytes (pseudoRequests (.update bs)) = bs := by
  obtain ⟨ws, tail, hrequests, -, -, hbytes⟩ := pseudoRequests_update bs
  have hword : ∀ w : Word, Request.bytes ⟨0xC0000008, w⟩ = wordBytes w := fun w => bytes_encode (.wr32Data w)
  have hbyte : ∀ b : Byte, Request.bytes ⟨0x80000008, b.setWidth 32⟩ = [b] := fun b => bytes_encode (.wr8Data b)
  rw [hrequests, streamBytes, List.flatMap_append, List.flatMap_map, List.flatMap_map]
  simp only [hword, hbyte, List.flatMap_singleton', hbytes]

theorem keepsStream_update (bs : List Byte) : ∀ r ∈ pseudoRequests (.update bs), r.keepsStream = true := by
  obtain ⟨ws, tail, hrequests, -⟩ := pseudoRequests_update bs
  rw [hrequests, List.forall_mem_append, List.forall_mem_map, List.forall_mem_map]
  exact ⟨fun w _ => keepsStream_encode (i := .wr32Data w) rfl, fun b _ => keepsStream_encode (i := .wr8Data b) rfl⟩

/-- An `update` of each chunk in turn carries the bytes of the whole input. -/
theorem streamBytes_update_chunks (chunks : List (List Byte)) :
    streamBytes (chunks.flatMap fun c => pseudoRequests (.update c)) = chunks.flatten := by
  calc (chunks.flatMap fun c => pseudoRequests (.update c)).flatMap Request.bytes
      = chunks.flatMap fun c => streamBytes (pseudoRequests (.update c)) := List.flatMap_assoc
    _ = chunks.flatten := by simp only [streamBytes_update, List.flatMap_id']

/-- Settles O36: in chunks or whole, the accesses carry the same bytes, and the digest is the complement of CRC. -/
theorem chunkingLeavesTheSameDigest : Obligations.ChunkingLeavesTheSameDigest := by
  intro chunks s htbl
  have hchunks : ∀ r ∈ chunks.flatMap fun c => pseudoRequests (.update c), r.keepsStream = true := fun r hr =>
    have ⟨c, _, hrc⟩ := List.mem_flatMap.mp hr
    keepsStream_update c r hrc
  have hbytes : streamBytes (chunks.flatMap fun c => pseudoRequests (.update c)) =
      streamBytes (pseudoRequests (.update chunks.flatten)) :=
    (streamBytes_update_chunks chunks).trans (streamBytes_update chunks.flatten).symm
  obtain ⟨t, u, ht, hu, hcrc⟩ := crcDependsOnPolynomialStartAndBytes _ _ s s htbl htbl rfl rfl hchunks
    (keepsStream_update chunks.flatten) hbytes
  exact ⟨t, u, _, _, ht, hu, hcrc, exec_rdDigest t, exec_rdDigest u, congrArg (some <| Response.data <| ~~~·) hcrc⟩

/-! ## Two blocks that differ in ALG (R25, R106) -/

/-- The tables belong to POLY after an access form if they did before it: WR.POLY alone writes either (R24). -/
theorem exec_keeps_tables (htbl : s.tbl = buildSlicedTable s.poly) (h : exec i s = .next t) :
    t.tbl = buildSlicedTable t.poly := by
  rcases exec_next h with ⟨-, d, rfl⟩ | ⟨v, -, rfl⟩ | ⟨v, -, -, rfl⟩ | ⟨v, -, -, rfl⟩ | ⟨v, -, -, rfl⟩ | ⟨v, -, -, rfl⟩ |
    ⟨b, -, rfl⟩ | ⟨w, -, rfl⟩
  case inr.inl => rfl
  all_goals exact htbl

theorem performAccess_keeps_tables (htbl : s.tbl = buildSlicedTable s.poly) (h : performAccess r s = .next t) :
    t.tbl = buildSlicedTable t.poly := by
  rcases performAccess_next r h with ⟨i, -, hexec⟩ | ⟨c, -, rfl⟩
  · exact exec_keeps_tables htbl hexec
  · simpa using htbl

/-- An access form other than RD.CTRL does the same under another ALG: the word fold alone reads ALG, and with the tables of POLY
both algorithms fold alike. -/
theorem exec_setAlg (a : Alg) (htbl : s.tbl = buildSlicedTable s.poly) (hi : i ≠ .rdCtrl) (h : exec i s = .next t) :
    ∃ b, exec i (s.setAlg a) = .next (t.setAlg b) := by
  cases i with
  | rdCtrl => exact absurd rfl hi
  | wrCtrl v =>
    cases h
    refine ⟨ctrlAlg v, ?_⟩
    rw [exec_wrCtrl]
    cases ctrlResetBit v <;> rfl
  | wrStatus v =>
    cases h
    refine ⟨a, ?_⟩
    rw [exec_wrStatus]
    cases statusClearBit v <;> rfl
  | wr32Data w =>
    cases h
    have hfold : fold32 a s.tbl s.crc w = fold32 s.alg s.tbl s.crc w := by
      rw [htbl, fold32_eq_fold32Simple, fold32_eq_fold32Simple]
    exact ⟨a, exec_wr32Data_of_fold32 (s := s.setAlg a) hfold⟩
  | _ =>
    cases h
    exact ⟨a, rfl⟩

theorem performAccess_setAlg (a : Alg) (htbl : s.tbl = buildSlicedTable s.poly) (hr : decode r ≠ .access .rdCtrl)
    (h : performAccess r s = .next t) : ∃ b, performAccess r (s.setAlg a) = .next (t.setAlg b) := by
  rcases performAccess_next r h with ⟨i, hdec, hexec⟩ | ⟨c, hdec, -⟩
  · rw [performAccess_of_access hdec]
    exact exec_setAlg a htbl (fun hi => hr (hi ▸ hdec)) hexec
  · rw [performAccess_of_busError hdec] at h ⊢
    cases h
    exact ⟨a, rfl⟩

/-- A sequence without RD.CTRL does the same under another ALG. -/
theorem performAll_setAlg (rs : List Request) (a : Alg) (htbl : s.tbl = buildSlicedTable s.poly)
    (hrs : ∀ r ∈ rs, decode r ≠ .access .rdCtrl) (h : performAll rs s = .next t) :
    ∃ b, performAll rs (s.setAlg a) = .next (t.setAlg b) := by
  induction rs generalizing s a with
  | nil =>
    cases h
    exact ⟨a, rfl⟩
  | cons r rs ih =>
    obtain ⟨hr, hrest⟩ := List.forall_mem_cons.mp hrs
    rcases performAccess_next_or_invalid r s with ⟨u, hfirst⟩ | hinvalid
    · rw [performAll_cons_of_next hfirst] at h
      obtain ⟨b, hfirst'⟩ := performAccess_setAlg a htbl hr hfirst
      rw [performAll_cons_of_next hfirst']
      exact ih b (performAccess_keeps_tables htbl hfirst) hrest h
    · rw [performAll_cons_of_invalid hinvalid] at h
      cases h

/-- Settles O39, by induction on the sequence: each access keeps the tables of POLY and the difference in ALG alone. -/
theorem algIsSeenOnlyByRdCtrl : Obligations.AlgIsSeenOnlyByRdCtrl := fun rs a _ t htbl hrs h =>
  have ⟨b, hall⟩ := performAll_setAlg rs a htbl hrs h
  ⟨t.setAlg b, hall, rfl⟩

end Sys2Proof.Machine
end

section
/-! PROOFS of the family 60_exceptions: the priority of the causes (R122), what a bus error and an access form leave of ERR,
ERRCAUSE and the answer (R121, R123, R125, R126), what a reset holds back (R128), a host's run (R124), and the blocks of a
platform (R134). -/

namespace Sys2Proof

/-! ## The checks of R122 by the offset as a number -/

section
variable {off : BitVec 13} {t : Target}

theorem eq_data_iff_of_targetAt (h : targetAt off = some t) : t = .reg .data ↔ off.toNat = 0x008 := by
  rcases targetAt_eq_some h with ⟨r, rfl, rfl⟩ | ⟨rfl, hwindow⟩
  · cases r <;> decide
  · have hlow := (getLsbD_twelve_iff off).mp hwindow
    exact iff_of_false nofun (by omega)

theorem isReadOnly_iff_of_targetAt (h : targetAt off = some t) :
    t.isReadOnly = true ↔ off.toNat = 0x00C ∨ 0x1000 ≤ off.toNat := by
  rcases targetAt_eq_some h with ⟨r, rfl, rfl⟩ | ⟨rfl, hwindow⟩
  · cases r <;> decide
  · exact iff_of_true rfl (.inr ((getLsbD_twelve_iff off).mp hwindow))

end

theorem Target.acceptsBytes_iff (t : Target) (n : Nat) :
    t.acceptsBytes n = true ↔ n = 4 ∨ t = .reg .data ∧ n = 1 := by
  simp [Target.acceptsBytes]

theorem Target.isWriteOnly_iff (t : Target) : t.isWriteOnly = true ↔ t = .reg .data := beq_iff_eq

/-- Settles O7: below the alignment check, each later check of R122 is one on the offset's target, read as a number. -/
theorem causeFollowsThePriorityOrder : Obligations.CauseFollowsThePriorityOrder := by
  refine ⟨⟨rfl, rfl, rfl, rfl, rfl⟩, fun ad => exists_cause_of_no_row, fun wr sz off => ?_⟩
  unfold cause
  cases htarget : targetAt off with
  | none => simp only [accessBytes_eq_two_pow, targetAt_eq_none_iff.mp htarget, not_false_eq_true, and_self, if_true]
  | some t =>
    have hmapped : ¬(off.toNat ∉ [0x000, 0x004, 0x008, 0x00C, 0x010] ∧ off.toNat < 0x1000) := fun hnone =>
      absurd (htarget.symm.trans (targetAt_eq_none_iff.mpr hnone)) nofun
    simp only [accessBytes_eq_two_pow, if_neg hmapped, Bool.and_eq_true, Bool.not_eq_true', ← Bool.not_eq_true,
      Target.acceptsBytes_iff, Target.isWriteOnly_iff, eq_data_iff_of_targetAt htarget,
      isReadOnly_iff_of_targetAt htarget, not_or]

namespace Machine

variable {s t u : State} {i : Instr} {r : Request} {rs : List Request}

/-! ## What a step leaves of the answer, ERR and ERRCAUSE (R121 to R126) -/

/-- Settles O12: the one arrival that gives no next state is an access whose descriptor is INVALID. -/
theorem stepStopsOnlyAtAnInvalidDescriptor : Obligations.StepStopsOnlyAtAnInvalidDescriptor := by
  intro s
  match hbus : s.bus with
  | [] => exact .inl ⟨s, step_of_bus_nil hbus⟩
  | .blockReset _ :: rest => exact .inl ⟨_, step_of_bus_cons hbus⟩
  | .access r :: rest =>
    have hstep : step s = performAccess r { s with bus := rest } := step_of_bus_cons hbus
    rw [hstep]
    rcases performAccess_next_or_invalid r { s with bus := rest } with hnext | hinvalid
    · exact .inl hnext
    · exact .inr ⟨performAccess_of_invalid hinvalid _, r, rest, rfl,
        (decoderAnswersInvalidOrRowOrCause r).1.mp hinvalid⟩

/-- The answer of an access form: data for a read, the completion for a write. -/
theorem exec_response (h : exec i s = .next t) :
    if i.isRead then ∃ d, t.response = some (.data d) else t.response = some .done := by
  cases i with
  | rdPoly | rdTable | rdCtrl | rdDigest | rdStatus =>
    cases h
    exact ⟨_, rfl⟩
  | wrPoly | wrCtrl | wrStatus | wr8Data | wr32Data =>
    cases h
    rfl

/-- Settles O13: an access form always gives a next state, with its answer. -/
theorem matchingAccessCompletesNormally : Obligations.MatchingAccessCompletesNormally := fun _ i s hdec =>
  have ⟨t, hexec⟩ := exec_exists_next i s
  ⟨t, (performAccess_of_access hdec s).trans hexec, exec_response hexec⟩

/-- Of the access forms, only WR.STATUS with bit 1 set changes ERR and ERRCAUSE, and it clears both (R96). -/
theorem exec_error (h : exec i s = .next t) :
    (t.err = s.err ∧ t.errCause = s.errCause) ∨
      ∃ v, i = .wrStatus v ∧ v.getLsbD 1 = true ∧ t.err = false ∧ t.errCause = 0 := by
  rcases exec_next h with ⟨-, d, rfl⟩ | ⟨v, -, rfl⟩ | ⟨v, -, -, rfl⟩ | ⟨v, -, -, rfl⟩ | ⟨v, rfl, hbit, rfl⟩ |
    ⟨v, -, -, rfl⟩ | ⟨b, -, rfl⟩ | ⟨w, -, rfl⟩
  case inr.inr.inr.inr.inl => exact .inr ⟨v, rfl, hbit, rfl, rfl⟩
  all_goals exact .inl ⟨rfl, rfl⟩

/-- A step keeps ERR and ERRCAUSE, clears them both by one of R125's two ways, or captures a bus error (R123). -/
theorem step_error (h : step s = .next t) :
    (t.err = s.err ∧ t.errCause = s.errCause) ∨
    (t.err = false ∧ t.errCause = 0 ∧ ((∃ v, s.arrives (.wrStatus v) ∧ v.getLsbD 1 = true) ∨ s.resetArrives)) ∨
    (t.err = true ∧ ∃ c : Cause, t.errCause = if s.err then s.errCause else c.code) := by
  rcases step_next h with ⟨-, rfl⟩ | ⟨r, rest, i, hbus, hdec, hexec⟩ | ⟨r, rest, c, -, -, rfl⟩ | ⟨a, rest, hbus, rfl⟩
  · exact .inl ⟨rfl, rfl⟩
  · rcases exec_error hexec with hkept | ⟨v, rfl, hbit, herr, hcause⟩
    · exact .inl hkept
    · exact .inr (.inl ⟨herr, hcause, .inl ⟨v, ⟨r, rest, hbus, hdec⟩, hbit⟩⟩)
  · exact .inr (.inr ⟨by simp, c, by simp⟩)
  · exact .inr (.inl ⟨rfl, rfl, .inr ⟨a, rest, hbus⟩⟩)

theorem step_keeps_errIff (hs : s.errCause = 0 ↔ s.err = false) (h : step s = .next t) :
    t.errCause = 0 ↔ t.err = false := by
  rcases step_error h with ⟨herr, hcause⟩ | ⟨herr, hcause, -⟩ | ⟨herr, c, hcause⟩
  · rw [herr, hcause, hs]
  · exact iff_of_true hcause herr
  · refine iff_of_false ?_ (ne_false_of_eq_true herr)
    rw [hcause]
    split
    next hset => exact mt hs.mp (ne_false_of_eq_true hset)
    next => exact c.code_ne_zero

/-- Settles O45: the capture is all a bus error does, and a captured cause has a code other than 0. -/
theorem busErrorCapturesTheFirstCauseOnly : Obligations.BusErrorCapturesTheFirstCauseOnly :=
  ⟨fun _ _ s hdec => performAccess_of_busError hdec s, fun _ _ => step_keeps_errIff⟩

/-- With ERR set, the capture finds nothing to do (R123, R125). -/
theorem performAccess_of_second_busError {c : Cause} (herr : s.err = true) (hdec : decode r = .busError c) :
    performAccess r s = .next { s with response := some (.busError c) } := by
  rw [performAccess_of_busError hdec, if_pos herr, ← herr]

/-- Settles O46: of the three things a step can do to ERR, only the clear unsets it, and a capture keeps the first cause. -/
theorem errStaysSetUntilCleared : Obligations.ErrStaysSetUntilCleared := by
  refine ⟨fun _ _ _ => performAccess_of_second_busError, fun s t hset h => ?_⟩
  rcases step_error h with ⟨herr, hcause⟩ | ⟨herr, hcause, hcleared⟩ | ⟨herr, c, hcause⟩
  · rwa [if_pos (herr.trans hset)]
  · rw [if_neg (ne_true_of_eq_false herr)]
    exact ⟨hcause, hcleared⟩
  · rw [if_pos herr, hcause, if_pos hset]

/-- Settles O50: block reset reads nothing of the state but what is still to arrive. -/
theorem resetAbandonsTheCutAccessAndHoldsTheRest : Obligations.ResetAbandonsTheCutAccessAndHoldsTheRest :=
  fun _ _ _ _ _ hbus hbus' => ⟨_, step_of_bus_cons hbus, step_of_bus_cons hbus', rfl, rfl⟩

/-! ## A host's run under P_HOST_ON_BUSERR (R124) -/

theorem performAll_cons_next (h : performAll (r :: rs) s = .next t) :
    ∃ u, performAccess r s = .next u ∧ performAll rs u = .next t := by
  rcases performAccess_next_or_invalid r s with ⟨u, hfirst⟩ | hinvalid
  · exact ⟨u, hfirst, (performAll_cons_of_next hfirst).symm.trans h⟩
  · cases (performAll_cons_of_invalid hinvalid s).symm.trans h

/-- An access that is performed is answered, with the error response or without. -/
theorem performAccess_response (h : performAccess r s = .next t) : ∃ a, t.response = some a := by
  rcases performAccess_next r h with ⟨i, -, hexec⟩ | ⟨c, -, rfl⟩
  · have hanswer := exec_response hexec
    split at hanswer
    next =>
      obtain ⟨d, hdata⟩ := hanswer
      exact ⟨_, hdata⟩
    next => exact ⟨_, hanswer⟩
  · exact ⟨_, rfl⟩

theorem errorResponse_of_access (hdec : decode r = .access i) (h : performAccess r s = .next t) :
    t.errorResponse = none := by
  have hanswer := exec_response ((performAccess_of_access hdec s).symm.trans h)
  unfold State.errorResponse
  split at hanswer
  next =>
    obtain ⟨d, hdata⟩ := hanswer
    rw [hdata]
  next => rw [hanswer]

theorem errorResponse_of_busError {c : Cause} (hdec : decode r = .busError c) (h : performAccess r s = .next t) :
    t.errorResponse = some c := by
  cases (performAccess_of_busError hdec s).symm.trans h
  rfl

section
variable {h : Config.OnBusError}

/-- A host goes on after an access without the error response, and one that goes on does so after any. -/
theorem hostRun_cons_of_next {answers : List Response} (hfirst : performAccess r s = .next u)
    (hon : u.errorResponse = none ∨ h = .goesOn) (hrest : hostRun h rs u = .next (answers, t)) :
    hostRun h (r :: rs) s = .next (u.response.toList ++ answers, t) := by
  rw [hostRun, hfirst]
  rcases hon with hnone | rfl
  · simp only [hnone, hrest]
  · cases hresp : u.errorResponse <;> simp only [hresp, hrest]

theorem hostRun_cons_of_fault {f : Fault} (hfirst : performAccess r s = .next u) (hnone : u.errorResponse = none)
    (hrest : hostRun h rs u = .fault f) : hostRun h (r :: rs) s = .fault f := by
  rw [hostRun, hfirst]
  simp only [hnone, hrest]

end

theorem hostRun_noRule_cons {c : Cause} (hfirst : performAccess r s = .next u) (hresp : u.errorResponse = some c) :
    hostRun .noRule (r :: rs) s = .fault (.unhandledBusError c) := by
  rw [hostRun, hfirst]
  simp only [hresp]

theorem hostRun_goesOn (hall : performAll rs s = .next t) :
    ∃ answers, hostRun .goesOn rs s = .next (answers, t) ∧ answers.length = rs.length := by
  induction rs generalizing s with
  | nil =>
    cases hall
    exact ⟨[], rfl, rfl⟩
  | cons r rs ih =>
    obtain ⟨u, hfirst, hrest⟩ := performAll_cons_next hall
    obtain ⟨answers, hrun, hlength⟩ := ih hrest
    obtain ⟨a, hanswer⟩ := performAccess_response hfirst
    refine ⟨_, hostRun_cons_of_next hfirst (.inr rfl) hrun, ?_⟩
    rw [hanswer, Option.toList_some, List.singleton_append, List.length_cons, List.length_cons, hlength]

/-- Where no access is refused, every host gets the same answers and leaves the same state. -/
theorem hostRun_of_all_performed (hrs : ∀ r ∈ rs, ∃ i, decode r = .access i) (hall : performAll rs s = .next t) :
    ∃ answers, ∀ h, hostRun h rs s = .next (answers, t) := by
  induction rs generalizing s with
  | nil =>
    cases hall
    exact ⟨[], fun _ => rfl⟩
  | cons r rs ih =>
    obtain ⟨⟨i, hdec⟩, hperformed⟩ := List.forall_mem_cons.mp hrs
    obtain ⟨u, hfirst, hrest⟩ := performAll_cons_next hall
    obtain ⟨answers, hrun⟩ := ih hperformed hrest
    exact ⟨_, fun h => hostRun_cons_of_next hfirst (.inl (errorResponse_of_access hdec hfirst)) (hrun h)⟩

/-- A host with no rule faults at the first refused access. -/
theorem hostRun_noRule_faults (hrs : ∃ r ∈ rs, ∃ c, decode r = .busError c) (hall : performAll rs s = .next t) :
    ∃ c, hostRun .noRule rs s = .fault (.unhandledBusError c) := by
  induction rs generalizing s with
  | nil => simp at hrs
  | cons r rs ih =>
    obtain ⟨u, hfirst, hrest⟩ := performAll_cons_next hall
    rcases performAccess_next r hfirst with ⟨i, hdec, -⟩ | ⟨c, hdec, -⟩
    · have hlater : ∃ r ∈ rs, ∃ c, decode r = .busError c :=
        ((List.exists_mem_cons_iff ..).mp hrs).resolve_left fun ⟨c, herror⟩ => nomatch hdec.symm.trans herror
      obtain ⟨c, hfault⟩ := ih hlater hrest
      exact ⟨c, hostRun_cons_of_fault hfirst (errorResponse_of_access hdec hfirst) hfault⟩
    · exact ⟨c, hostRun_noRule_cons hfirst (errorResponse_of_busError hdec hfirst)⟩

/-- Settles O48, by induction on the sequence: the hosts part only at an access with the error response. -/
theorem hostPolicyDecidesWhetherTheProgramGoesOn : Obligations.HostPolicyDecidesWhetherTheProgramGoesOn := by
  refine fun rs s t hall => ⟨hostRun_goesOn hall, fun hrs => ?_, fun hrs => hostRun_noRule_faults hrs hall⟩
  obtain ⟨answers, hrun⟩ := hostRun_of_all_performed hrs hall
  exact ⟨answers, hrun .noRule, hrun .stops⟩

/-! ## The blocks of a platform (R134) -/

section
variable {a : HostAccess} {p q : Platform} {l l' : List (Nat × State)}

/-- What a host access can do to a platform's blocks: one whose aperture holds the address performs it. -/
theorem accessInstances_next (h : accessInstances a l = .next l') :
    ∃ n base s t, l[n]? = some (base, s) ∧ inAperture base a.addr = true ∧
      performAccess (a.request base) s = .next t ∧ l' = l.set n (base, t) := by
  induction l generalizing l' with
  | nil => cases h
  | cons x rest ih =>
    obtain ⟨base, s⟩ := x
    unfold accessInstances at h
    split at h
    next hin =>
      split at h
      next t hperform => exact ⟨0, base, s, t, rfl, hin, hperform, (Host.Outcome.next.inj h).symm⟩
      next => cases h
      next => cases h
    next =>
      split at h
      next rest' hrest =>
        obtain ⟨n, b, s', t, hn, hin, hperform, rfl⟩ := ih hrest
        exact ⟨n + 1, b, s', t, hn, hin, hperform, (Host.Outcome.next.inj h).symm⟩
      next => cases h
      next => cases h

theorem Platform.access_next (h : p.access a = .next q) : accessInstances a p.instances = .next q.instances := by
  unfold Platform.access at h
  split at h
  next l hl =>
    cases h
    exact hl
  next => cases h
  next => cases h

theorem inAperture_iff {base addr : Nat} :
    inAperture base addr = true ↔ base ≤ addr ∧ addr < base + Config.apertureBytes := decide_eq_true_iff

/-- An address lies in the aperture of at most one block. -/
theorem Platform.wf.index_unique (hwf : p.wf) {m n addr : Nat} {x y : Nat × State} (hm : p.instances[m]? = some x)
    (hn : p.instances[n]? = some y) (hx : inAperture x.1 addr = true) (hy : inAperture y.1 addr = true) : m = n := by
  obtain ⟨hmlt, rfl⟩ := List.getElem?_eq_some_iff.mp hm
  obtain ⟨hnlt, rfl⟩ := List.getElem?_eq_some_iff.mp hn
  have hdisjoint := List.pairwise_iff_getElem.mp hwf.2
  rw [inAperture_iff] at hx hy
  rcases Nat.lt_trichotomy m n with hlt | heq | hgt
  · have hapart := hdisjoint m n hmlt hnlt hlt
    omega
  · exact heq
  · have hapart := hdisjoint n m hnlt hmlt hgt
    omega

end

/-- Settles O57: the access replaces the state of one block, the only one whose aperture holds the address. -/
theorem accessChangesOnlyTheAddressedInstance : Obligations.AccessChangesOnlyTheAddressedInstance := by
  intro a p q hwf h
  obtain ⟨m, base', s', t', hm, hin', hperform, hq⟩ := accessInstances_next (Platform.access_next h)
  rw [hq]
  refine ⟨List.length_set, fun n base s hn => ?_⟩
  by_cases hmn : m = n
  · subst hmn
    cases hm.symm.trans hn
    refine ⟨t', ?_, ?_⟩
    · rw [List.getElem?_set_self (List.getElem?_eq_some_iff.mp hm).1]
    · rwa [if_pos hin']
  · have hout : ¬inAperture base a.addr = true := fun hin => hmn (hwf.index_unique hm hn hin' hin)
    exact ⟨s, (List.getElem?_set_ne hmn).trans hn, (if_neg hout).mpr rfl⟩

end Machine
end Sys2Proof
end

section
/-! PROOFS of the family 70_reset_and_hazards: what ERR tells of a sequence (R144, R151), the values after block reset and after the
three writes that equal it (R140), the clean start of a stream (R143), and the invariant at reset. -/

namespace Sys2Proof.Machine

variable {s t : State} {i : Instr} {r : Request} {rs : List Request}

/-! ## What ERR tells of a sequence (R144, R151) -/

theorem exec_keeps_err (hi : i.clearsError = false) (h : exec i s = .next t) : t.err = s.err := by
  rcases exec_error h with ⟨herr, -⟩ | ⟨v, rfl, hbit, -⟩
  · exact herr
  · exact absurd (hbit.symm.trans hi) (by decide)

/-- Without a clear, ERR is 0 after an access when it was 0 before it and the access was performed. -/
theorem performAccess_err_eq_false_iff (hclear : ∀ i, decode r = .access i → i.clearsError = false)
    (h : performAccess r s = .next t) : t.err = false ↔ s.err = false ∧ ∃ i, decode r = .access i := by
  rcases performAccess_next r h with ⟨i, hdec, hexec⟩ | ⟨c, hdec, rfl⟩
  · rw [exec_keeps_err (hclear i hdec) hexec, and_iff_left ⟨i, hdec⟩]
  · have hset : ((s.captureError c).respond (.busError c)).err = true := s.captureError_err c
    exact iff_of_false (ne_false_of_eq_true hset) fun ⟨_, i, haccess⟩ => nomatch hdec.symm.trans haccess

/-- Without a clear, ERR is 0 after a sequence when it was 0 before it and each access was performed. -/
theorem performAll_err_eq_false_iff (hclear : ∀ r ∈ rs, ∀ i, decode r = .access i → i.clearsError = false)
    (h : performAll rs s = .next t) : t.err = false ↔ s.err = false ∧ ∀ r ∈ rs, ∃ i, decode r = .access i := by
  induction rs generalizing s with
  | nil =>
    cases h
    exact (and_iff_left (List.forall_mem_nil _)).symm
  | cons r rs ih =>
    obtain ⟨hr, hrs⟩ := List.forall_mem_cons.mp hclear
    obtain ⟨u, hfirst, hrest⟩ := performAll_cons_next h
    rw [ih hrs hrest, performAccess_err_eq_false_iff hr hfirst, List.forall_mem_cons, and_assoc]

/-- Settles O47, by induction on the sequence: a refused access sets ERR, and nothing in the sequence clears it. -/
theorem errClearMeansNothingWasRefused : Obligations.ErrClearMeansNothingWasRefused :=
  fun _ _ _ herr hclear h => (performAll_err_eq_false_iff hclear h).trans (and_iff_right herr)

/-! ## Block reset, and the writes that equal it (R140) -/

theorem step_of_resetArrives (h : s.resetArrives) : ∃ rest, step s = .next { State.reset with bus := rest } :=
  have ⟨_, rest, hbus⟩ := h
  ⟨rest, step_of_bus_cons hbus⟩

/-- An access form and then `clrerr` (R70). -/
theorem performAll_encode_clrerr (h : exec i s = .next t) :
    performAll ([encode i] ++ pseudoRequests .clrerr) s = .next (t.clearError.respond .done) :=
  (performAll_encode_cons h).trans (performAll_encode_cons (exec_wrStatus 2 t))

/-- The three writes of R140 set every element but the answer, which is theirs, and what is still to arrive. -/
theorem performAll_resetWrites (s : State) :
    performAll [encode (.wrPoly 0xEDB88320), encode (.wrCtrl 0), encode (.wrStatus 2)] s =
      .next { State.reset with bus := s.bus, response := some .done } :=
  (performAll_encode_cons (exec_wrPoly _ s)).trans (performAll_encode_clrerr (exec_wrCtrl 0 _))

/-- DIGEST reads 0 where CRC is all-ones (R93). -/
theorem exec_rdDigest_of_ones (hcrc : s.crc = 0xFFFFFFFF) :
    exec .rdDigest s = .next { s with response := some (.data 0x00000000) } := by
  have hdigest : ~~~s.crc = 0 := by rw [hcrc]; decide
  rw [exec_rdDigest, hdigest]
  rfl

/-- CTRL reads 0 where ALG is simple (R90). -/
theorem exec_rdCtrl_of_simple (halg : s.alg = .simple) :
    exec .rdCtrl s = .next { s with response := some (.data 0x00000000) } := by
  have hword : s.ctrlWord = 0 := by rw [State.ctrlWord, halg]; rfl
  rw [exec_rdCtrl, hword]
  rfl

/-- STATUS reads 0 in Ready with no error recorded (R95). -/
theorem exec_rdStatus_of_ready (hphase : s.phase = .ready) (herr : s.err = false) (hcause : s.errCause = 0) :
    exec .rdStatus s = .next { s with response := some (.data 0x00000000) } := by
  have hword : s.statusWord = 0 := by rw [State.statusWord, hphase, herr, hcause]; rfl
  rw [exec_rdStatus, hword]
  rfl

/-- Settles O49: each of the three states is State.reset but for what is to arrive and the answer, which no register shows. -/
theorem blockResetSetsEveryElement : Obligations.BlockResetSetsEveryElement := by
  refine ⟨fun s t ht => ?values, fun s harr => ?_, fun s => ⟨_, performAll_resetWrites s⟩⟩
  case values =>
    have hreset : ∃ bus answer, t = { State.reset with bus := bus, response := answer } := by
      rcases ht with rfl | ⟨harr, h⟩ | ⟨u, h, rfl⟩
      · exact ⟨[], none, rfl⟩
      · obtain ⟨rest, hstep⟩ := step_of_resetArrives harr
        exact ⟨rest, none, Host.Outcome.next.inj (h.symm.trans hstep)⟩
      · exact ⟨s.bus, some .done, Host.Outcome.next.inj (h.symm.trans (performAll_resetWrites s))⟩
    obtain ⟨bus, answer, rfl⟩ := hreset
    exact ⟨rfl, rfl, rfl, rfl, rfl, rfl, rfl, exec_rdDigest_of_ones rfl, exec_rdCtrl_of_simple rfl,
      exec_rdStatus_of_ready rfl rfl rfl⟩
  · obtain ⟨rest, hstep⟩ := step_of_resetArrives harr
    exact ⟨_, hstep⟩

/-! ## A clean start (R143) -/

theorem pseudoRequests_new (p : Word) : pseudoRequests (.new p) = [encode (.wrPoly p)] := rfl

theorem pseudoRequests_reset (a : Alg) :
    pseudoRequests (.reset a) = [encode (.wrCtrl (algWord a <<< 1 ||| 1))] := rfl

/-- The CTRL write of `reset a` sets ALG to `a` and restarts the CRC (R70, R91). -/
theorem exec_wrCtrl_reset (a : Alg) (s : State) :
    exec (.wrCtrl (algWord a <<< 1 ||| 1)) s = .next ((s.setAlg a).restartCrc.respond .done) := by
  cases a <;> rfl

/-- Settles O51: either write restarts the CRC and leaves the tables of POLY, and `clrerr` clears ERR. -/
theorem newAndResetGiveACleanStart : Obligations.NewAndResetGiveACleanStart := by
  refine ⟨fun p s => ?new, fun a s htbl => ?reset⟩
  case new =>
    rw [pseudoRequests_new]
    exact ⟨_, performAll_encode_clrerr (exec_wrPoly p s), rfl, rfl, rfl, rfl, rfl⟩
  case reset =>
    rw [pseudoRequests_reset]
    exact ⟨_, performAll_encode_clrerr (exec_wrCtrl_reset a s), ⟨rfl, htbl, rfl, rfl, rfl⟩, rfl⟩

/-! ## The invariant at reset -/

/-- Settles O52: State.reset is what block reset makes of it. -/
theorem invariantHoldsAtReset : Obligations.InvariantHoldsAtReset := Inv.blockReset State.reset

end Sys2Proof.Machine
end
